-- ==== Sys2Proof/Word.lean ====
section
/-! DEFINITION. The bit-vector types of the engine (00_scope.md R7, R10): 16-bit words on the wire, 8-bit staged
registers and SPI bytes, 6-bit half-bridge fields. All unsigned. -/

namespace Sys2Proof

/-- A command word or a status word: `WORD_W` = 16 bits (R7). -/
abbrev Word := BitVec 16

/-- A staged register or one SPI byte: `STAGE_W` = `SPI_WORD_SIZE` = 8 bits (R7). -/
abbrev Byte := BitVec 8

/-- A half-bridge field (`hben`, `hbcnf`, `hbst`, `hbcr`): `HB_W` = 6 bits (R7). -/
abbrev HbField := BitVec 6

/-- One channel pair (R14): there are `N_AXES` = 4 of them, axes 0 to 3 (R7). -/
abbrev Axis := Fin 4

end Sys2Proof
end

