-- ==== Sys2Proof/Config.lean ====
section
/-! DEFINITION. What is fixed for one engine or lies outside it: the transport's interface types (20_memory.md R36 to
R39, 10_state.md R28), the layout records (00_scope.md R8, R9) and the open parameters, which are opaque constants
that no proof can evaluate (R8, decisions D15, D18, D22). -/

namespace Sys2Proof

/-- Which numbers stand for a bus identifier beside the first: a free value (R8, D18; log 9). -/
opaque Config.isBusId : Nat → Bool

/-- Which numbers stand for a native chip-select identifier beside the first: a free value (R8, D18; log 9). -/
opaque Config.isCsId : Nat → Bool

/-- Bus identifier, passed to TxBind unchanged. Its type is OPEN in the spec (R8, D18): nothing is known of this one but
that it has a member and that two members can be compared.
DESIGN CHOICE (log 9, safe): identifiers can be numbered, so that State is plain data. -/
inductive BusId where
  | first
  | other (n : Nat) (named : Config.isBusId n = true)
deriving DecidableEq, Repr, Inhabited

/-- Native chip-select identifier, OPEN as `BusId` is (R8, D18; log 9). -/
inductive CsId where
  | first
  | other (n : Nat) (named : Config.isCsId n = true)
deriving DecidableEq, Repr, Inhabited

/-- The bus identifier that an integer of a host-program line stands for (30_encoding.md R65): a free value (log 9). -/
opaque Config.busIdOf : Int → BusId

/-- The chip-select identifier that an integer of a host-program line stands for, as `Config.busIdOf` (log 9). -/
opaque Config.csIdOf : Int → CsId

/-- The chip-select of a bind: the controller's own line, or a GPIO pin (20_memory.md R36). -/
inductive CsSel where
  | native (id : CsId)
  | gpio (id : Int)
deriving DecidableEq, Repr

/-- The one bit order the engine ever asks for (20_memory.md R36, R40: nothing can switch it). -/
inductive BitOrder where
  | msbFirst
deriving DecidableEq, Repr

/-- The bind configuration record (20_memory.md R36, 30_encoding.md R69). -/
structure BindCfg where
  bus : BusId
  cs : CsSel
  mode : Nat
  wordSize : Nat
  clockRate : Nat
  bitOrder : BitOrder
deriving DecidableEq, Repr

/-- The answer of a call that returns no word (R36, R38). -/
inductive Ack where
  | ok
  | err
deriving DecidableEq, Repr

/-- The answer of a whole frame: the 16 bits clocked back, or an error (20_memory.md R39, R43). -/
inductive Reply where
  | ok (s : Word)
  | err
deriving DecidableEq, Repr, Inhabited

/-- One entry of the transport's script of coming answers: an answer, or no answer ever (20_memory.md R48). -/
inductive Answer where
  | reply (r : Reply)
  | silent
deriving DecidableEq, Repr

/-- A transport call that waits for an answer (20_memory.md R36, R38, R39). -/
inductive TxCall where
  | bind (cfg : BindCfg)
  | write (w : Word)
  | writeRead (w : Word)
deriving DecidableEq, Repr

/-- A transport event of the trace (10_state.md R28). -/
inductive TxEvent where
  | bind (cfg : BindCfg) (ans : Ack)
  | release
  | write (w : Word) (ans : Ack)
  | writeRead (w : Word) (ans : Reply)
deriving DecidableEq, Repr

/-- `CmdLayout`: the lowest bit position of each field of the command word (R8, R53, D1). -/
structure CmdLayout where
  srr : Nat
  hbsel : Nat
  uldsc : Nat
  hben : Nat
  hbcnf : Nat
  ovlo : Nat
deriving DecidableEq, Repr

/-- `StatusLayout`: the lowest bit position of each field of the status word (R8, R56, D2). -/
structure StatusLayout where
  ocs : Nat
  psf : Nat
  uld : Nat
  hbst : Nat
  hbcr : Nat
  tw : Nat
deriving DecidableEq, Repr

/-- `clockRate`, the "default clock rate" passed to bind: OPEN (R8, D18). -/
opaque Config.clockRate : Nat

/-- `interFrameGap`: OPEN and owned by the transport (R8, R142, D22); no rule of the engine reads it. -/
opaque Config.interFrameGap : Nat

/-- The transport oracle (R8, D15): the answer to a call, given every event before it, where the script of
`State.answers` is used up. A free value: nothing constrains it (log 3, safe). -/
opaque Config.transport : List TxEvent → TxCall → Reply

end Sys2Proof
end

