-- ==== Sys2Proof/Syntax.lean ====
section
/-! DEFINITION. The instructions: the four host operations and the two wire forms (00_scope.md R2, 30_encoding.md R67),
one constructor per row of the opcode table, and the raw forms they are decoded from: the host request record (R59)
and the 16-bit command word (R53). -/

namespace Sys2Proof

/-- An instruction of the engine (R2, R67). -/
inductive Instr where
  /-- INITIALIZE (43_transaction_sequencer.md R95), op 0. -/
  | init (bus : BusId) (cs : CsId) (gpioCs : Int)
  /-- SET_OUTPUT (40_device_state.md R70), op 1; the arguments are mathematical integers (R60, D8). -/
  | set (axis direction : Int)
  /-- APPLY (43_transaction_sequencer.md R98), op 2. -/
  | apply
  /-- CLOSE (43_transaction_sequencer.md R100), op 3. -/
  | close
  /-- CMD_RESET, the wire form 0x8000 (41_command_encoder.md R80). -/
  | cmdReset
  /-- CMD_CONFIG, the wire form `000E EEEE ECCC CCC0` (30_encoding.md R55, 41_command_encoder.md R81). -/
  | cmdConfig (hben hbcnf : HbField)
deriving DecidableEq, Repr

/-- The four host operations by name (R59), as a fault reason names them (60_exceptions.md R117). -/
inductive HostOp where
  | init
  | setOutput
  | apply
  | close
deriving DecidableEq, Repr

/-- The argument fields of a host request (R59): those of INITIALIZE, those of SET_OUTPUT, or none. -/
inductive HostArgs where
  | session (bus : BusId) (cs : CsId) (gpioCs : Int)
  | output (axis direction : Int)
  | none
deriving DecidableEq, Repr

/-- A host request record `op, args` (R59): the 2-bit selector and the argument fields. -/
structure HostRequest where
  op : BitVec 2
  args : HostArgs
deriving DecidableEq, Repr

/-- What the sequencer can be handed: a host request or a command word. -/
inductive Encoded where
  | request (r : HostRequest)
  | word (w : Word)
deriving DecidableEq, Repr

end Sys2Proof
end

