-- ==== Sys2Proof/WellFormed.lean ====
section
/-! DEFINITION. Which raw forms are encodings at all. Every term of `Instr` is well formed by its type: the engine
validates no `bus`, `cs` or `gpio_cs`, an `axis` or `direction` out of range is a legal request with the outcome
InvalidArgument (30_encoding.md R60, R63c), and the wire fields are six bits wide. What can be ill formed is the raw
form: a request without the shape of R59, a word outside the two forms of R55. -/

namespace Sys2Proof

/-- The argument fields are those that selector `op` takes (30_encoding.md R59). -/
def HostArgs.fit (op : BitVec 2) : HostArgs → Bool
  | .session _ _ _ => op == 0
  | .output _ _ => op == 1
  | .none => op == 2 || op == 3

/-- A request has the fixed shape of R59 (R64). -/
def HostRequest.wellFormed (r : HostRequest) : Bool :=
  r.args.fit r.op

/-- A word is one of the two forms the engine emits, by the match and mask of 30_encoding.md R55. -/
def commandWordLegal (w : Word) : Bool :=
  w == 0x8000#16 || (w &&& 0xE001#16) == 0#16

/-- Well-formedness of either raw form. -/
def Encoded.wellFormed : Encoded → Bool
  | .request r => r.wellFormed
  | .word w => commandWordLegal w

end Sys2Proof
end

