-- ==== Sys2Proof/Decode.lean ====
section
/-! DEFINITION. The command word's fields (41_command_encoder.md R82 and its inverse), the order of its bytes and bits
on the bus (20_memory.md R40, R41, R84), the decoder of host requests and of command words (30_encoding.md R67), which
rejects by name, and the encoder. -/

namespace Sys2Proof

/-- Decision D1: the positions of the command fields (30_encoding.md R53). -/
def cmdLayout : CmdLayout :=
  { srr := 15, hbsel := 14, uldsc := 13, hben := 7, hbcnf := 1, ovlo := 0 }

/-- Decision D2: the positions of the status fields (30_encoding.md R56). -/
def statusLayout : StatusLayout :=
  { ocs := 15, psf := 14, uld := 13, hbst := 7, hbcr := 1, tw := 0 }

/-- The six fields of a command word (30_encoding.md R53). -/
structure CmdFields where
  srr : BitVec 1
  hbsel : BitVec 1
  uldsc : BitVec 1
  hben : HbField
  hbcnf : HbField
  ovlo : BitVec 1
deriving DecidableEq, Repr

/-- A field placed at its lowest bit position in a 16-bit word. -/
def placeField {n : Nat} (v : BitVec n) (lo : Nat) : Word :=
  v.setWidth 16 <<< lo

/-- A command word from its fields under a layout. -/
def packWith (l : CmdLayout) (f : CmdFields) : Word :=
  placeField f.srr l.srr ||| placeField f.hbsel l.hbsel ||| placeField f.uldsc l.uldsc |||
    placeField f.hben l.hben ||| placeField f.hbcnf l.hbcnf ||| placeField f.ovlo l.ovlo

/-- The fields of a command word under a layout. -/
def fieldsWith (l : CmdLayout) (w : Word) : CmdFields :=
  { srr := w.extractLsb' l.srr 1
    hbsel := w.extractLsb' l.hbsel 1
    uldsc := w.extractLsb' l.uldsc 1
    hben := w.extractLsb' l.hben 6
    hbcnf := w.extractLsb' l.hbcnf 6
    ovlo := w.extractLsb' l.ovlo 1 }

/-- A command word from its six fields (R53, D1). -/
def packCommand (f : CmdFields) : Word := packWith cmdLayout f

/-- CMD_FIELDS (41_command_encoder.md R82), total on all words. -/
def cmdFields (w : Word) : CmdFields := fieldsWith cmdLayout w

/-- SERIALIZE (41_command_encoder.md R84): the two bytes the transport sends, first byte first. -/
def serialize (w : Word) : Byte × Byte :=
  (w.extractLsb' 8 8, w.extractLsb' 0 8)

/-- The receive order (20_memory.md R41, D5): the word of two received bytes. -/
def deserialize (first second : Byte) : Word :=
  (first.setWidth 16 <<< 8) ||| second.setWidth 16

/-- The bits of one byte in bus order, most significant first (20_memory.md R40). -/
def byteBits (b : Byte) : List Bool :=
  (List.range 8).map fun i => b.getLsbD (7 - i)

/-- The bits of a frame in bus order (20_memory.md R40): the first byte's, then the second's. -/
def busBits (w : Word) : List Bool :=
  byteBits (serialize w).1 ++ byteBits (serialize w).2

/-- Why a raw form is no instruction. -/
inductive DecodeError where
  /-- A request whose argument fields are not those R59 gives its selector. -/
  | wrongArguments (op : HostOp)
  /-- A command word that is neither form of R55: "any other word is not one the engine emits" (R67). -/
  | notEmitted (w : Word)
  /-- A frame that is not exactly two bytes (20_memory.md R42). -/
  | notAFrame (bytes : Nat)
deriving DecidableEq, Repr

/-- The operation a selector names: all four values are used (30_encoding.md R59, D6). -/
def HostOp.ofCode (op : BitVec 2) : HostOp :=
  if op = 0 then .init else if op = 1 then .setOutput else if op = 2 then .apply else .close

/-- The selector of an operation (30_encoding.md R59, D6). -/
def HostOp.code : HostOp → BitVec 2
  | .init => 0
  | .setOutput => 1
  | .apply => 2
  | .close => 3

/-- The decoder of host requests switches on `op` alone (R67) and takes the arguments of R59's shape. -/
def decodeRequest (r : HostRequest) : Except DecodeError Instr :=
  match HostOp.ofCode r.op, r.args with
  | .init, .session bus cs gpioCs => .ok (.init bus cs gpioCs)
  | .setOutput, .output axis direction => .ok (.set axis direction)
  | .apply, .none => .ok .apply
  | .close, .none => .ok .close
  | op, _ => .error (.wrongArguments op)

/-- The decoder of command words (R67), by field names (R9): the reset strobe alone is CMD_RESET, the enable and
configuration fields alone are CMD_CONFIG, any other word is rejected. -/
def decodeWord (w : Word) : Except DecodeError Instr :=
  let f := cmdFields w
  if f.hbsel = 0 ∧ f.uldsc = 0 ∧ f.ovlo = 0 then
    if f.srr = 0 then .ok (.cmdConfig f.hben f.hbcnf)
    else if f.hben = 0 ∧ f.hbcnf = 0 then .ok .cmdReset
    else .error (.notEmitted w)
  else .error (.notEmitted w)

/-- A frame's bytes in transmit order: exactly two (20_memory.md R42). -/
def decodeFrame : List Byte → Except DecodeError Instr
  | [first, second] => decodeWord (deserialize first second)
  | bytes => .error (.notAFrame bytes.length)

/-- The decoder of either raw form. -/
def decode : Encoded → Except DecodeError Instr
  | .request r => decodeRequest r
  | .word w => decodeWord w

/-- The encoder, from the same tables (30_encoding.md R55, R59). -/
def encode : Instr → Encoded
  | .init bus cs gpioCs => .request ⟨HostOp.init.code, .session bus cs gpioCs⟩
  | .set axis direction => .request ⟨HostOp.setOutput.code, .output axis direction⟩
  | .apply => .request ⟨HostOp.apply.code, .none⟩
  | .close => .request ⟨HostOp.close.code, .none⟩
  | .cmdReset => .word (packCommand ⟨1, 0, 0, 0, 0, 0⟩)
  | .cmdConfig hben hbcnf => .word (packCommand ⟨0, 0, 0, hben, hbcnf, 0⟩)

/-- One row of the opcode table: its width in whole bytes' bits, its mask and its match. -/
structure TableRow where
  nbits : Nat
  mask : Nat
  value : Nat
deriving DecidableEq, Repr

/-- The row of the opcode table that an instruction belongs to. -/
def Instr.row : Instr → TableRow
  | .init _ _ _ => ⟨8, 0x3, 0x0⟩
  | .set _ _ => ⟨8, 0x3, 0x1⟩
  | .apply => ⟨8, 0x3, 0x2⟩
  | .close => ⟨8, 0x3, 0x3⟩
  | .cmdReset => ⟨16, 0xFFFF, 0x8000⟩
  | .cmdConfig _ _ => ⟨16, 0xE001, 0x0000⟩

/-- The bits the opcode table numbers: the 2-bit selector of a request, or the command word. -/
def Encoded.tableBits : Encoded → Nat
  | .request r => r.op.toNat
  | .word w => w.toNat

/-- The argument fields of a request given by its selector alone: every integer 0, every identifier the first (log 8). -/
def zeroArgs (op : BitVec 2) : HostArgs :=
  if op = 0 then .session .first .first 0 else if op = 1 then .output 0 0 else .none

/-- The raw form that the table's bits stand for: 16 bits are a command word, fewer are a request's 2-bit selector (a
request's arguments are record fields and have no table bits). -/
def tableEncoded (nbits w : Nat) : Option Encoded :=
  if nbits = 16 then some (.word (BitVec.ofNat 16 w))
  else if nbits ≤ 8 then
    let op := BitVec.ofNat 2 w
    some (.request ⟨op, zeroArgs op⟩)
  else none

/-- The instruction the decoder reads from a row's bits. -/
def decodeTableWord (nbits w : Nat) : Option Instr :=
  match tableEncoded nbits w with
  | none => none
  | some e => (decode e).toOption

end Sys2Proof
end

