-- ==== Sys2Proof/Machine/State.lean ====
section
/-! DEFINITION. The engine's state (10_state.md), its fault and refusal reasons, and the state after reset
(R33, R129). Plain data throughout. -/

namespace Sys2Proof.Machine

/-- The handle state, the engine's one control state (10_state.md R20). -/
inductive HandleState where
  | uninit
  | ready
  | closed
deriving DecidableEq, Repr

/-- The value of `st.fault` (10_state.md R27, 60_exceptions.md R117): why the host's use is undefined behaviour. -/
inductive FaultMark where
  | notReady (op : HostOp) (state : HandleState)
deriving DecidableEq, Repr

/-- The closed outcome set (60_exceptions.md R113). -/
inductive OutcomeCode where
  | success
  | transportError
  | invalidArgument
  | configurationMismatch
  | thermalWarning
  | powerSupplyFailure
  | overcurrentShutoff
  | underLoad
deriving DecidableEq, Repr

/-- A host response (30_encoding.md R61): an outcome, or CLOSE's `Done`, which is not one (D14). -/
inductive Response where
  | outcome (o : OutcomeCode)
  | done
deriving DecidableEq, Repr

/-- The staged registers `st.out_en` and `st.out_conf` (10_state.md R21, R22). Every rule that writes one writes both, so
they hold a value together or not at all. -/
structure Staged where
  outEn : Byte
  outConf : Byte
deriving DecidableEq, Repr

/-- The handle: its state `st.hs` (R20) and the staged registers in it. A READY handle's registers hold values; before the
first bind answered Ok they hold none, `none` being the unwritten marker of R34 (log 1). The operations that read them
fault with NotReady wherever the marker can stand (43_transaction_sequencer.md R103), so it is never read as a value. -/
inductive Handle where
  | uninit (staged : Option Staged)
  | ready (staged : Staged)
  | closed (staged : Option Staged)
deriving DecidableEq, Repr

/-- Why the machine stops with a fault. -/
inductive Fault where
  /-- Raised by the step of an engine whose transport call never answered: a hang (20_memory.md R48, U6 'stuck'). Safe. -/
  | transportSilent (call : TxCall)
deriving DecidableEq, Repr

/-- Why the machine refuses an instruction. -/
inductive Refusal where
  /-- Raised by an arm of exec that has no meaning yet (none has been left so). Safe. -/
  | notModelled (mnemonic : String)
  /-- Raised by every meaning while an operation is still waiting for the transport: "A model has no transition for a
  second operation issued while one is running" (20_memory.md R47, U3). Safe. -/
  | overlappingOperation
  /-- Raised by the two wire forms when no session is bound: no transport call other than TxBind is made then
  (10_state.md R25). Safe. -/
  | noSession
  /-- Raised by the step on a raw form that is no instruction (30_encoding.md R63, R64). Safe. -/
  | undecodable (e : DecodeError)
deriving DecidableEq, Repr

/-- The engine's state. The first four fields are the spec's (10_state.md R20 to R28); the last five are the model's own:
the call in flight, inputs, and the output list. -/
structure State where
  /-- `st.hs` (R20) with `st.out_en` (R21) and `st.out_conf` (R22); `State.hs`, `State.outEn` and `State.outConf` read
  them one by one. -/
  handle : Handle
  /-- `st.bound` (R25). -/
  bound : Bool
  /-- `st.fault` (R27), sticky (log 2). -/
  fault : Option FaultMark
  /-- `st.trace` (R28), oldest event first. -/
  trace : List TxEvent
  /-- The transport call that will never answer, if there is one (20_memory.md R48; log 4). -/
  waiting : Option TxCall
  /-- Host requests issued and not yet taken, oldest first (R45, R59; log 5). -/
  requests : List HostRequest
  /-- A command word whose transaction is to run by itself (R55; log 6). -/
  wireWord : Option Word
  /-- The transport's coming answers (D15; log 3). -/
  answers : List Answer
  /-- The responses given so far, oldest first (R61, R111; log 7). -/
  responses : List Response
deriving DecidableEq, Repr

/-- A fresh handle (10_state.md R33, 70_reset_and_hazards.md R129). -/
def State.reset : State where
  handle := .uninit none
  bound := false
  fault := none
  trace := []
  waiting := none
  requests := []
  wireWord := none
  answers := []
  responses := []

end Sys2Proof.Machine
end

