-- ==== Sys2Proof/Machine/Operands.lean ====
section
/-! DEFINITION. Operand forms: the handle state and the staged registers (10_state.md R20 to R22), the pairs of a
staged register (00_scope.md R14), the axis and direction arguments (30_encoding.md R60, 40_device_state.md R71, R76), the
chip-select argument (20_memory.md R36), the admitted operations of each handle state (43_transaction_sequencer.md R102),
and the numeric codes (R20, R113). -/

namespace Sys2Proof.Machine

/-- The handle state of a handle (10_state.md R20). -/
def Handle.state : Handle → HandleState
  | .uninit _ => .uninit
  | .ready _ => .ready
  | .closed _ => .closed

/-- The staged registers of a handle, where they hold values (R33, R34). -/
def Handle.staged : Handle → Option Staged
  | .uninit r => r
  | .ready r => some r
  | .closed r => r

/-- The staged registers written, in any handle state. -/
def Handle.write (r : Staged) : Handle → Handle
  | .uninit _ => .uninit (some r)
  | .ready _ => .ready r
  | .closed _ => .closed (some r)

/-- `st.hs` (R20). -/
def State.hs (s : State) : HandleState := s.handle.state

/-- `st.out_en` (R21), where it holds a value. -/
def State.outEn (s : State) : Option Byte := s.handle.staged.map Staged.outEn

/-- `st.out_conf` (R22), where it holds a value. -/
def State.outConf (s : State) : Option Byte := s.handle.staged.map Staged.outConf

/-- Both registers as INITIALIZE and CLOSE clear them (43_transaction_sequencer.md R95, R100). -/
def clearedRegisters : Staged := ⟨0x00#8, 0x00#8⟩

/-- Pair `a` of a staged register: bits `2a+1` and `2a` (R14). -/
def getPair (r : Byte) (a : Axis) : BitVec 2 :=
  r.extractLsb' (2 * a.val) 2

/-- The register with pair `a` replaced and every other pair kept (R14, R72). -/
def setPair (r : Byte) (a : Axis) (v : BitVec 2) : Byte :=
  (r &&& ~~~(3#8 <<< (2 * a.val))) ||| (v.setWidth 8 <<< (2 * a.val))

/-- A direction argument that is in range. Which physical direction `plus` is, the spec does not say (R71, N16). -/
inductive Direction where
  | plus
  | minus
  | zero
deriving DecidableEq, Repr

/-- The axis argument as a mathematical integer: 0 to 3, nothing wraps (R60, R76, D8). -/
def parseAxis (axis : Int) : Option Axis :=
  if h : 0 ≤ axis ∧ axis < 4 then some ⟨axis.toNat, by show axis.toNat < 4; omega⟩ else none

/-- The direction argument as a mathematical integer: -1, 0 or +1 (R60, R76, D8). -/
def parseDirection (direction : Int) : Option Direction :=
  if direction = 1 then some .plus
  else if direction = -1 then some .minus
  else if direction = 0 then some .zero
  else none

/-- The pair of `out_conf` a direction stands for (R71): low bit for +1, high bit for -1, neither for 0. -/
def directionPair : Direction → BitVec 2
  | .plus => 0b01
  | .minus => 0b10
  | .zero => 0b00

/-- The chip-select of a bind: native unless a GPIO id of 0 or more is supplied (R36, R60, D9). -/
def chipSelect (cs : CsId) (gpioCs : Int) : CsSel :=
  if gpioCs < 0 then .native cs else .gpio gpioCs

/-- The bind record INITIALIZE passes (20_memory.md R36): everything but `bus`, `cs` and the clock rate is constant. -/
def bindCfg (bus : BusId) (cs : CsId) (gpioCs : Int) : BindCfg where
  bus := bus
  cs := chipSelect cs gpioCs
  mode := 1
  wordSize := 8
  clockRate := Config.clockRate
  bitOrder := .msbFirst

/-- The handle states that admit an operation (43_transaction_sequencer.md R102, R103). -/
def admittedIn (op : HostOp) (hs : HandleState) : Bool :=
  match op, hs with
  | .init, .uninit => true
  | .setOutput, .ready => true
  | .apply, .ready => true
  | .close, .uninit => true
  | .close, .ready => true
  | _, _ => false

/-- The code of a handle state (10_state.md R20, D6). -/
def handleStateCode : HandleState → BitVec 2
  | .uninit => 0
  | .ready => 1
  | .closed => 2

/-- The code of an outcome (60_exceptions.md R113, D7). -/
def outcomeNumber : OutcomeCode → BitVec 3
  | .success => 0
  | .transportError => 1
  | .invalidArgument => 2
  | .configurationMismatch => 3
  | .thermalWarning => 4
  | .powerSupplyFailure => 5
  | .overcurrentShutoff => 6
  | .underLoad => 7

/-- What the source advises the host to do after an outcome (60_exceptions.md R128). -/
inductive Advice where
  | retryTransaction
  | retryApply
  | deEnergize
  | explicitReset
deriving DecidableEq, Repr

/-- The advice for each outcome (60_exceptions.md R113, R128); an empty list advises nothing. -/
def hostAdvice : OutcomeCode → List Advice
  | .success => []
  | .transportError => [.retryTransaction]
  | .invalidArgument => []
  | .configurationMismatch => [.retryApply]
  | .thermalWarning => [.retryTransaction, .deEnergize, .explicitReset]
  | .powerSupplyFailure => [.retryTransaction, .deEnergize, .explicitReset]
  | .overcurrentShutoff => [.retryTransaction, .deEnergize, .explicitReset]
  | .underLoad => [.retryTransaction, .deEnergize, .explicitReset]

end Sys2Proof.Machine
end

