-- ==== Sys2Proof/Machine/Encoder.lean ====
section
/-! DEFINITION. The Command Encoder (41_command_encoder.md): ENCODE, a pure function of the staged registers and the
reset flag, the two words the engine sends, and what a word's bits ask of the chip's half-bridges (30_encoding.md R54). -/

namespace Sys2Proof.Machine

/-- ENCODE (R77): `hben` and `hbcnf` are the low six staged bits (R78, D3); `hbsel`, `uldsc` and `ovlo` are always 0
(R79, D4). No validation. -/
def encodeCommand (en conf : Byte) (r : BitVec 1) : Word :=
  packCommand { srr := r, hbsel := 0#1, uldsc := 0#1, hben := en.setWidth 6, hbcnf := conf.setWidth 6, ovlo := 0#1 }

/-- CMD_RESET (R80): the reset strobe alone. -/
def resetWord : Word := encodeCommand 0#8 0#8 1#1

/-- CMD_CONFIG (R81) of two staged registers. -/
def configWord (en conf : Byte) : Word := encodeCommand en conf 0#1

/-- Which switch of an enabled half-bridge is on (30_encoding.md R54, R71). -/
inductive Drive where
  | highSideOn
  | lowSideOn
deriving DecidableEq, Repr

/-- What a command word asks of half-bridge `i` (30_encoding.md R54): `none` where R54 states nothing, which is where
`hben` bit `i` is 0, or where `hbsel`, `uldsc` or `ovlo` is 1 (93_implementation_defined.md U8 to U10). No word the engine
sends has one of the three set (R62). DEDUCED (log 17): `srr` = 1 does not change what the other fields ask. -/
def halfBridgeDrive (w : Word) (i : Fin 6) : Option Drive :=
  let f := cmdFields w
  if f.hbsel = 0 ∧ f.uldsc = 0 ∧ f.ovlo = 0 ∧ f.hben.getLsbD i.val = true then
    some (if f.hbcnf.getLsbD i.val then .highSideOn else .lowSideOn)
  else none

end Sys2Proof.Machine
end

