-- ==== Sys2Proof/Machine/Flags.lean ====
section
/-! DEFINITION. The Status Decoder (42_status_decoder.md): STATUS_DECODE and CLASSIFY, pure functions of their
operands (R91); nothing of a reply is stored (10_state.md R26). -/

namespace Sys2Proof.Machine

/-- The fields of a status word (30_encoding.md R56). -/
structure StatusFields where
  ocs : BitVec 1
  psf : BitVec 1
  uld : BitVec 1
  hbst : HbField
  hbcr : HbField
  tw : BitVec 1
deriving DecidableEq, Repr

/-- The fields of a status word under a layout. -/
def statusFieldsWith (l : StatusLayout) (s : Word) : StatusFields :=
  { ocs := s.extractLsb' l.ocs 1
    psf := s.extractLsb' l.psf 1
    uld := s.extractLsb' l.uld 1
    hbst := s.extractLsb' l.hbst 6
    hbcr := s.extractLsb' l.hbcr 6
    tw := s.extractLsb' l.tw 1 }

/-- STATUS_DECODE (R85): total, no status word is illegal (30_encoding.md R58). -/
def statusDecode (s : Word) : StatusFields := statusFieldsWith statusLayout s

/-- The status word of given fields, the inverse of STATUS_DECODE (95_test_vectors.md section 4, STATUS_WORD). -/
def packStatus (f : StatusFields) : Word :=
  placeField f.ocs statusLayout.ocs ||| placeField f.psf statusLayout.psf |||
    placeField f.uld statusLayout.uld ||| placeField f.hbst statusLayout.hbst |||
    placeField f.hbcr statusLayout.hbcr ||| placeField f.tw statusLayout.tw

/-- CLASSIFY (R86): checks 2 to 7 in the source's order, the first match winning; `hbcr` is compared with the `hbcnf`
field of the word sent (R87), and `hbst` with nothing (R88). -/
def classify (w s : Word) : OutcomeCode :=
  let f := statusDecode s
  if f.hbcr ≠ (cmdFields w).hbcnf then .configurationMismatch
  else if f.tw = 1 then .thermalWarning
  else if f.psf = 1 then .powerSupplyFailure
  else if f.ocs = 1 then .overcurrentShutoff
  else if f.uld = 1 then .underLoad
  else .success

end Sys2Proof.Machine
end

