-- ==== Sys2Proof/Machine/Ops.lean ====
section
/-! DEFINITION. The named operations over the state: responding, raising the sticky fault, writing the staged registers
and the handle state, the transport's primitives (20_memory.md R36 to R39), the guards an instruction begins with
(60_exceptions.md R119), and taking the next thing issued. -/

namespace Sys2Proof.Machine

/-- `respond r` (00_scope.md R13, 30_encoding.md R61). -/
def State.respond (r : Response) (s : State) : State :=
  { s with responses := s.responses ++ [r] }

/-- `fault F` (R13, R27, R103): the mark is written and nothing else, no call and no response. -/
def State.raise (m : FaultMark) (s : State) : State :=
  { s with fault := some m }

/-- The staged registers set to given values (R21, R22). -/
def State.stage (r : Staged) (s : State) : State :=
  { s with handle := s.handle.write r }

/-- `st.hs <- READY` (43_transaction_sequencer.md R95), with the registers that INITIALIZE has just written. -/
def State.openHandle (r : Staged) (s : State) : State :=
  { s with handle := .ready r }

/-- `st.hs <- CLOSED` (R100, R101): the registers stay as they are. -/
def State.closeHandle (s : State) : State :=
  { s with handle := .closed s.handle.staged }

/-- The transport's answer to a call: the next entry of the script, or a free value when the script is used up; `none`
is no answer ever (D15, R48). -/
def State.drawn (call : TxCall) (s : State) : Option Reply :=
  match s.answers with
  | [] => some (Config.transport s.trace call)
  | .reply r :: _ => some r
  | .silent :: _ => none

/-- A reply as the answer of a call that returns no word: the bits clocked back are lost (R38). -/
def ackOf : Reply → Ack
  | .ok _ => .ok
  | .err => .err

/-- The event a call and its answer append (R28). -/
def eventOf : TxCall → Reply → TxEvent
  | .bind cfg, r => .bind cfg (ackOf r)
  | .write w, r => .write w (ackOf r)
  | .writeRead w, r => .writeRead w r

/-- One entry of the script is used up. -/
def State.popAnswer (s : State) : State :=
  { s with answers := s.answers.tail }

/-- One event is appended to the trace (R12, R28). -/
def State.logEvent (e : TxEvent) (s : State) : State :=
  { s with trace := s.trace ++ [e] }

/-- The engine waits for an answer that never comes (R48). -/
def State.hang (call : TxCall) (s : State) : State :=
  { s with waiting := some call }

/-- One transport call, indivisible for the engine (R43): the answer is drawn and one event appended before it is used
(R12), or the engine hangs and no event is appended (R48). -/
def transact (call : TxCall) (s : State) : State × Option Reply :=
  match s.drawn call with
  | some r => ((s.popAnswer).logEvent (eventOf call r), some r)
  | none => ((s.popAnswer).hang call, none)

/-- The session binding as a transport call leaves it (10_state.md R25). -/
def State.setBound (b : Bool) (s : State) : State :=
  { s with bound := b }

/-- The session becomes bound, or stays unbound, by the bind's answer (20_memory.md R36). -/
def State.bindBy : Option Reply → State → State
  | some (.ok _), s => s.setBound true
  | some .err, s => s
  | none, s => s

/-- TxBind (20_memory.md R36). -/
def txBind (cfg : BindCfg) (s : State) : State × Option Ack :=
  let p := transact (.bind cfg) s
  (p.1.bindBy p.2, p.2.map ackOf)

/-- TxRelease (20_memory.md R37): no error result. -/
def txRelease (s : State) : State :=
  (s.logEvent .release).setBound false

/-- TxWrite (20_memory.md R38): one frame, the reply discarded. -/
def txWrite (w : Word) (s : State) : State × Option Ack :=
  let p := transact (.write w) s
  (p.1, p.2.map ackOf)

/-- TxWriteRead (20_memory.md R39): one frame and the 16 bits received during it. -/
def txWriteRead (w : Word) (s : State) : State × Option Reply :=
  transact (.writeRead w) s

/-- What every instruction begins with, the first checks of 60_exceptions.md R119: an operation still waiting allows no
second one (R47), and a sticky fault stays and nothing else changes (R27). -/
def unlessStopped (s : State) (body : Host.Outcome State Fault Refusal) : Host.Outcome State Fault Refusal :=
  match s.waiting with
  | some _ => .refused .overlappingOperation
  | none =>
    match s.fault with
    | some _ => .next s
    | none => body

/-- The guard of a host operation (R119): a handle state that does not admit it raises NotReady
(43_transaction_sequencer.md R103). -/
def guardOp (op : HostOp) (s : State) (body : Host.Outcome State Fault Refusal) : Host.Outcome State Fault Refusal :=
  unlessStopped s (if admittedIn op s.hs then body else .next (s.raise (.notReady op s.hs)))

/-- The guard of an operation that READY alone admits (R102, R103), handing it the staged registers. -/
def onReady (op : HostOp) (s : State) (body : Staged → Host.Outcome State Fault Refusal) :
    Host.Outcome State Fault Refusal :=
  unlessStopped s <|
    match s.handle with
    | .ready r => body r
    | .uninit _ => .next (s.raise (.notReady op .uninit))
    | .closed _ => .next (s.raise (.notReady op .closed))

/-- The guard of a wire form run by itself: a session must be bound (10_state.md R25). -/
def onSession (s : State) (body : Host.Outcome State Fault Refusal) : Host.Outcome State Fault Refusal :=
  unlessStopped s (if s.bound then body else .refused .noSession)

/-- A transaction's outcome becomes the response of the operation, unless the operation hangs (R48, R61). -/
def respondWith : State × Option OutcomeCode → State
  | (t, some o) => t.respond (.outcome o)
  | (t, none) => t

/-- What the sequencer takes next and the state without it: a placed command word, else the oldest host request (R45). -/
def State.nextIssue (s : State) : Option (Encoded × State) :=
  match s.wireWord with
  | some w => some (.word w, { s with wireWord := none })
  | none =>
    match s.requests with
    | [] => none
    | r :: rest => some (.request r, { s with requests := rest })

/-- The state with a raw form placed where the next step takes it. No operation may be running (R47). A command word is
only ever sent within an operation that has bound the session (R25), so it takes a bound session with it (log 6). -/
def State.place (e : Encoded) (s : State) : State :=
  match e with
  | .word w => { s with wireWord := some w, bound := true, waiting := none }
  | .request r => { s with wireWord := none, requests := r :: s.requests, waiting := none }

end Sys2Proof.Machine
end

