-- ==== Sys2Proof/Machine/Sequencer.lean ====
section
/-! DEFINITION. The Transaction Sequencer (43_transaction_sequencer.md): RESET_TXN, APPLY_TXN and the host operations
INITIALIZE, APPLY and CLOSE. -/

namespace Sys2Proof.Machine

/-- RESET_TXN (R93): one write-only frame; its reply is not examined. -/
def resetTxn (s : State) : State × Option OutcomeCode :=
  match txWrite resetWord s with
  | (t, none) => (t, none)
  | (t, some .ok) => (t, some .success)
  | (t, some .err) => (t, some .transportError)

/-- APPLY_TXN (R94) for the command word `w`: the word is sent twice, the second reply is classified against it, and a
transport error on either frame aborts (D16). -/
def verifyTxn (w : Word) (s : State) : State × Option OutcomeCode :=
  match txWrite w s with
  | (t, none) => (t, none)
  | (t, some .err) => (t, some .transportError)
  | (t, some .ok) =>
    match txWriteRead w t with
    | (u, none) => (u, none)
    | (u, some .err) => (u, some .transportError)
    | (u, some (.ok reply)) => (u, some (classify w reply))

/-- INITIALIZE after the power-on reset (R95, R96, R97): READY on success, else the session is released (D11). -/
def finishInit : State × Option OutcomeCode → State
  | (t, none) => t
  | (t, some .success) => (t.openHandle clearedRegisters).respond (.outcome .success)
  | (t, some o) => (txRelease t).respond (.outcome o)

/-- INITIALIZE from UNINIT (R95, R131): bind, then clear both registers (D10), then the power-on reset. -/
def runInit (cfg : BindCfg) (s : State) : State :=
  match txBind cfg s with
  | (t, none) => t
  | (t, some .err) => t.respond (.outcome .transportError)
  | (t, some .ok) => finishInit (resetTxn (t.stage clearedRegisters))

/-- INITIALIZE (R95). -/
def execInit (bus : BusId) (cs : CsId) (gpioCs : Int) (s : State) : Host.Outcome State Fault Refusal :=
  guardOp .init s (.next (runInit (bindCfg bus cs gpioCs) s))

/-- APPLY (R98): the outcome of APPLY_TXN is the response, and the handle stays READY (R106). -/
def execApply (s : State) : Host.Outcome State Fault Refusal :=
  onReady .apply s fun r => .next (respondWith (verifyTxn (configWord r.outEn r.outConf) s))

/-- CLOSE after the shutdown reset (R100, R107): whatever its answer, the session is released and the handle CLOSED. -/
def finishClose : State × Option OutcomeCode → State
  | (t, none) => t
  | (t, some _) => (txRelease t).closeHandle.respond .done

/-- CLOSE (R100): in UNINIT nothing but the handle state changes (R101, D12); in READY both registers are cleared, then
the shutdown reset is sent. -/
def execClose (s : State) : Host.Outcome State Fault Refusal :=
  guardOp .close s <|
    if s.hs = .uninit then .next (s.closeHandle.respond .done)
    else .next (finishClose (resetTxn (s.stage clearedRegisters)))

end Sys2Proof.Machine
end

