-- ==== Sys2Proof/Machine/SetOutput.lean ====
section
/-! DEFINITION. SET_OUTPUT, the Device State block's one operation (40_device_state.md). -/

namespace Sys2Proof.Machine

/-- The registers after a SET_OUTPUT in range: the pair of `out_en` is `11`, also for direction 0 (R73), the pair of
`out_conf` the direction's code (R71), and every other pair is kept (R72). -/
def setOutput (a : Axis) (d : Direction) (r : Staged) : Staged :=
  { outEn := setPair r.outEn a 0b11, outConf := setPair r.outConf a (directionPair d) }

/-- SET_OUTPUT (R70): an argument out of range is InvalidArgument with no state written (R76); else pair `axis` of
`out_en` becomes `11`, also for direction 0 (R73), and the pair of `out_conf` the direction's code (R71). No transport
call (R74). Axis 3 is staged like any other (R75). -/
def execSet (axis direction : Int) (s : State) : Host.Outcome State Fault Refusal :=
  onReady .setOutput s fun r =>
    match parseAxis axis, parseDirection direction with
    | some a, some d => .next ((s.stage (setOutput a d r)).respond (.outcome .success))
    | _, _ => .next (s.respond (.outcome .invalidArgument))

end Sys2Proof.Machine
end

