-- ==== Sys2Proof/Machine/Wire.lean ====
section
/-! DEFINITION. The two wire forms run by themselves (30_encoding.md R55, R67): each is the transaction that sends it,
and, as R93 and R94 say of those, it writes the trace only. The transaction's outcome goes back to the sequencer that
asked for it, so no response is given: a response belongs to a host operation (R61). See log 6. -/

namespace Sys2Proof.Machine

/-- CMD_RESET (41_command_encoder.md R80): RESET_TXN sends it (43_transaction_sequencer.md R93). -/
def execCmdReset (s : State) : Host.Outcome State Fault Refusal :=
  onSession s (.next (resetTxn s).1)

/-- CMD_CONFIG (41_command_encoder.md R81): APPLY_TXN sends it twice and classifies the second reply
(43_transaction_sequencer.md R94). -/
def execCmdConfig (hben hbcnf : HbField) (s : State) : Host.Outcome State Fault Refusal :=
  onSession s (.next (verifyTxn (configWord (hben.setWidth 8) (hbcnf.setWidth 8)) s).1)

end Sys2Proof.Machine
end

