-- ==== Sys2Proof/Machine/Dispatch.lean ====
section
/-! DEFINITION. One arm per instruction. -/

namespace Sys2Proof.Machine

def exec (i : Instr) (s : State) : Host.Outcome State Fault Refusal :=
  match i with
  | .init bus cs gpioCs => Sys2Proof.Machine.execInit bus cs gpioCs s
  | .set axis direction => Sys2Proof.Machine.execSet axis direction s
  | .apply => Sys2Proof.Machine.execApply s
  | .close => Sys2Proof.Machine.execClose s
  | .cmdReset => Sys2Proof.Machine.execCmdReset s
  | .cmdConfig hben hbcnf => Sys2Proof.Machine.execCmdConfig hben hbcnf s

end Sys2Proof.Machine
end

