-- ==== Sys2Proof/Machine/Step.lean ====
section
/-! DEFINITION. One step of the engine: it takes the next thing issued, decodes it and executes it. -/

namespace Sys2Proof.Machine

/-- One step. An engine whose transport call never answered is stuck (20_memory.md R48); with nothing issued it is idle
and nothing changes (00_scope.md R6); else the next raw form is taken, decoded (30_encoding.md R67) and executed, whole
(20_memory.md R45). -/
def step (s : State) : Host.Outcome State Fault Refusal :=
  match s.waiting with
  | some call => .fault (.transportSilent call)
  | none =>
    match s.nextIssue with
    | none => .next s
    | some (e, t) =>
      match decode e with
      | .ok i => exec i t
      | .error err => .refused (.undecodable err)

/-- The state with the instruction of a table row's bits placed where the next step takes it. -/
def State.withFetchWord (s : State) (nbits w : Nat) : State :=
  match tableEncoded nbits w with
  | some e => s.place e
  | none => s

end Sys2Proof.Machine
end

