-- ==== Sys2Proof/Machine/Assembler.lean ====
section
/-! DEFINITION. The host-program text of 30_encoding.md R65 (D25), one request per line, over lists of characters. -/

namespace Sys2Proof.Machine

/-- Why a line is no request. -/
inductive AsmError where
  | unknownMnemonic
  | badOperand
  | wrongOperandCount (op : HostOp) (count : Nat)
deriving DecidableEq, Repr

/-- Blanks taken off both ends. -/
def trimBlanks (cs : List Char) : List Char :=
  ((cs.dropWhile (· == ' ')).reverse.dropWhile (· == ' ')).reverse

/-- The text of a line before its comment (R65). -/
def beforeComment (line : List Char) : List Char :=
  line.takeWhile (· != ';')

/-- The value of decimal digits, most significant first, with the value read so far. -/
def readDigits : List Char → Nat → Option Nat
  | [], n => some n
  | c :: cs, n => if c.isDigit then readDigits cs (10 * n + (c.toNat - 48)) else none

/-- A decimal natural number: at least one digit. -/
def readNatural : List Char → Option Nat
  | [] => none
  | c :: cs => readDigits (c :: cs) 0

/-- A decimal integer with an optional sign (R65). -/
def readInteger : List Char → Option Int
  | '+' :: cs => (readNatural cs).map Int.ofNat
  | '-' :: cs => (readNatural cs).map fun n => -(Int.ofNat n)
  | cs => (readNatural cs).map Int.ofNat

/-- The operands of a line, separated by commas. -/
def splitCommas : List Char → List (List Char)
  | [] => [[]]
  | c :: cs =>
    if c = ',' then [] :: splitCommas cs
    else
      match splitCommas cs with
      | f :: fs => (c :: f) :: fs
      | [] => [[c]]

/-- All operands as integers, or none if one is not. -/
def readOperands : List (List Char) → Option (List Int)
  | [] => some []
  | f :: fs =>
    match readInteger (trimBlanks f), readOperands fs with
    | some n, some ns => some (n :: ns)
    | _, _ => none

/-- The mnemonics of R65: every one is exactly one host request. -/
def readMnemonic (m : List Char) : Option HostOp :=
  if m = ['i', 'n', 'i', 't'] then some .init
  else if m = ['s', 'e', 't'] then some .setOutput
  else if m = ['a', 'p', 'p', 'l', 'y'] then some .apply
  else if m = ['c', 'l', 'o', 's', 'e'] then some .close
  else none

/-- The argument fields that the operands of a mnemonic stand for (R59, R65); none where their number is wrong. -/
def operandArgs : HostOp → List Int → Option HostArgs
  | .init, [bus, cs, gpioCs] => some (.session (Config.busIdOf bus) (Config.csIdOf cs) gpioCs)
  | .setOutput, [axis, direction] => some (.output axis direction)
  | .apply, [] => some .none
  | .close, [] => some .none
  | _, _ => none

/-- One line: no request where the line is blank or a comment alone. -/
def assembleLine (line : List Char) : Except AsmError (Option HostRequest) :=
  let text := trimBlanks (beforeComment line)
  if text = [] then .ok none
  else
    let rest := trimBlanks (text.dropWhile (· != ' '))
    match readMnemonic (text.takeWhile (· != ' ')) with
    | none => .error .unknownMnemonic
    | some op =>
      match readOperands (if rest = [] then [] else splitCommas rest) with
      | none => .error .badOperand
      | some operands =>
        match operandArgs op operands with
        | some args => .ok (some ⟨op.code, args⟩)
        | none => .error (.wrongOperandCount op operands.length)

/-- A host program: its requests in line order. -/
def assemble : List (List Char) → Except AsmError (List HostRequest)
  | [] => .ok []
  | l :: ls =>
    match assembleLine l, assemble ls with
    | .ok (some r), .ok rs => .ok (r :: rs)
    | .ok none, .ok rs => .ok rs
    | .error e, _ => .error e
    | _, .error e => .error e

end Sys2Proof.Machine
end

