-- ==== Sys2Proof/Machine/EchoDevice.lean ====
section
/-! DEFINITION. The reference echo device (95_test_vectors.md section 4, D27): a test-only stand-in for the chip. It is no
part of the engine and no step reads it; a transport script made from it is one script among all (20_memory.md R52). -/

namespace Sys2Proof.Machine

/-- Four fault bits, as the device latches them or as a test raises them. -/
structure FaultBits where
  tw : Bool
  uld : Bool
  psf : Bool
  ocs : Bool
deriving DecidableEq, Repr

/-- No fault bit. -/
def noFaults : FaultBits := ⟨false, false, false, false⟩

/-- The device's state: the reply it gives on the next frame, and its latched fault bits. -/
structure EchoDevice where
  prev : Word
  latched : FaultBits
deriving DecidableEq, Repr

/-- The device's initial state. -/
def echoInitial : EchoDevice := ⟨0, noFaults⟩

/-- Bits latched together. -/
def joinFaults (a b : FaultBits) : FaultBits :=
  ⟨a.tw || b.tw, a.uld || b.uld, a.psf || b.psf, a.ocs || b.ocs⟩

/-- The status word of a command word's fields under latched faults. -/
def echoStatus (f : CmdFields) (l : FaultBits) : Word :=
  packStatus
    { ocs := BitVec.ofBool l.ocs, psf := BitVec.ofBool l.psf, uld := BitVec.ofBool l.uld
      hbst := f.hben, hbcr := f.hbcnf, tw := BitVec.ofBool l.tw }

/-- ECHO_FRAME: one frame, the reply reflecting the frame before it; `inject` are the fault bits to raise now. -/
def echoFrame (inject : FaultBits) (w : Word) (d : EchoDevice) : Word × EchoDevice :=
  let f := cmdFields w
  if f.srr = 1 then (d.prev, ⟨0, noFaults⟩)
  else
    let l := joinFaults d.latched inject
    (d.prev, ⟨echoStatus f l, l⟩)

/-- The device's answer to a transport call: Ok, with the reply of a frame; a bind does not touch it. -/
def echoAnswer (inject : FaultBits) (call : TxCall) (d : EchoDevice) : Answer × EchoDevice :=
  match call with
  | .bind _ => (.reply (.ok 0), d)
  | .write w => (.reply (.ok (echoFrame inject w d).1), (echoFrame inject w d).2)
  | .writeRead w => (.reply (.ok (echoFrame inject w d).1), (echoFrame inject w d).2)

/-- The transport script the device gives for a list of calls, each with the fault bits raised at it. -/
def echoScript : List (TxCall × FaultBits) → EchoDevice → List Answer
  | [], _ => []
  | (call, inject) :: rest, d =>
    (echoAnswer inject call d).1 :: echoScript rest (echoAnswer inject call d).2

end Sys2Proof.Machine
end

