-- ==== Sys2Proof/Safety.lean ====
section
/-! DEFINITION. The terms claims use: the observation and the acceptable end of a run (43_transaction_sequencer.md R111),
what the trace says of the frames and of the session (10_state.md R25, R28), and the invariants of 10_state.md R31, R32
and 30_encoding.md R55. -/

namespace Sys2Proof.Machine

/-- No operation is running and no fault is recorded: the guards of 60_exceptions.md R119 before the handle state. -/
def State.idle (s : State) : Prop :=
  s.waiting = none ∧ s.fault = none

/-- The observation of a run (R111): the responses and the trace. -/
def State.observation (s : State) : List Response × List TxEvent :=
  (s.responses, s.trace)

/-- An acceptable final state (R111): every issued operation has completed and no fault is recorded. -/
def State.acceptableFinal (s : State) : Prop :=
  s.fault = none ∧ s.waiting = none ∧ s.requests = []

/-- The operation a host instruction is (30_encoding.md R59); the wire forms are none. -/
def hostOpOf : Instr → Option HostOp
  | .init _ _ _ => some .init
  | .set _ _ => some .setOutput
  | .apply => some .apply
  | .close => some .close
  | .cmdReset => none
  | .cmdConfig _ _ => none

/-- The command word an event carries. -/
def sentWord : TxEvent → Option Word
  | .write w _ => some w
  | .writeRead w _ => some w
  | .bind _ _ => none
  | .release => none

/-- The command words of all frames attempted, in order. -/
def framesSent (tr : List TxEvent) : List Word :=
  tr.filterMap sentWord

/-- The command word of an event whose frame was answered Ok. -/
def receivedWord : TxEvent → Option Word
  | .write w .ok => some w
  | .write _ .err => none
  | .writeRead w (.ok _) => some w
  | .writeRead _ .err => none
  | .bind _ _ => none
  | .release => none

/-- The bus frames the chip is known to have received (10_state.md R28): the words of the events answered Ok. -/
def framesReceived (tr : List TxEvent) : List Word :=
  tr.filterMap receivedWord

/-- Whether the session is bound after an event (10_state.md R25). -/
def openAfter (isOpen : Bool) : TxEvent → Bool
  | .bind _ .ok => true
  | .bind _ .err => isOpen
  | .release => false
  | .write _ _ => isOpen
  | .writeRead _ _ => isOpen

/-- Whether the session is bound after a trace. -/
def sessionOpen (tr : List TxEvent) : Bool :=
  tr.foldl openAfter false

/-- The bind record of the session after an event. -/
def cfgAfter (c : Option BindCfg) : TxEvent → Option BindCfg
  | .bind cfg .ok => some cfg
  | .bind _ .err => c
  | .release => none
  | .write _ _ => c
  | .writeRead _ _ => c

/-- The bind record of the bound session, if there is one (10_state.md R25). -/
def boundCfg (tr : List TxEvent) : Option BindCfg :=
  tr.foldl cfgAfter none

/-- An event may happen: a bind only while unbound, any other call only while bound (10_state.md R25). -/
def eventAllowed (isOpen : Bool) : TxEvent → Bool
  | .bind _ _ => !isOpen
  | .release => isOpen
  | .write _ _ => isOpen
  | .writeRead _ _ => isOpen

/-- Every event of a trace may happen where it stands. -/
def traceLegal (isOpen : Bool) : List TxEvent → Bool
  | [] => true
  | e :: es => eventAllowed isOpen e && traceLegal (openAfter isOpen e) es

/-- The staged registers of a READY handle, pair by pair (10_state.md R31, R32): disabled with no direction, or enabled
with a direction other than the invalid `11`. -/
def pairsLegal (en conf : Byte) : Prop :=
  ∀ a : Axis, (getPair en a = 0b00 ∧ getPair conf a = 0b00) ∨ (getPair en a = 0b11 ∧ getPair conf a ≠ 0b11)

/-- The three pairs of a CMD_CONFIG word's fields, as 30_encoding.md R55 gives them within the reachable states. -/
def configPairsLegal (w : Word) : Prop :=
  ∀ k : Fin 3,
    ((cmdFields w).hben.extractLsb' (2 * k.val) 2 = 0b00 ∧ (cmdFields w).hbcnf.extractLsb' (2 * k.val) 2 = 0b00) ∨
    ((cmdFields w).hben.extractLsb' (2 * k.val) 2 = 0b11 ∧ (cmdFields w).hbcnf.extractLsb' (2 * k.val) 2 ≠ 0b11)

/-- The engine's invariant: a READY handle has a bound session and legal staged registers; a session is bound only in
READY or inside an operation that is still waiting; the trace agrees with `bound`, makes no call without a session, and
carries no word outside the two forms (10_state.md R25, R31, R32, 30_encoding.md R55). -/
structure State.Inv (s : State) : Prop where
  readyBound : s.hs = .ready → s.bound = true
  boundReady : s.bound = true → s.hs = .ready ∨ s.waiting.isSome = true
  readyStaged : ∀ r, s.handle = .ready r → pairsLegal r.outEn r.outConf
  traceBound : sessionOpen s.trace = s.bound
  traceCalls : traceLegal false s.trace = true
  traceWords : ∀ w ∈ framesSent s.trace, commandWordLegal w = true

/-- The invariant of a run that the host alone drives (no wire form placed by itself): every frame sent is CMD_RESET, or a
CMD_CONFIG with the pairs of 30_encoding.md R55. -/
structure State.HostInv (s : State) : Prop where
  inv : s.Inv
  noWireWord : s.wireWord = none
  wordPairs : ∀ w ∈ framesSent s.trace, w = 0x8000#16 ∨ (w &&& 0xE001#16 = 0#16 ∧ configPairsLegal w)

end Sys2Proof.Machine
end

