-- ==== Sys2Proof/Certificates/Slice0/Obligations.lean ====
section
/-! DEFINITION. The statements for the provers. Rules are those of spec/; a clause that rests on one of the spec's own
decisions (D1 to D28) is true of the spec as written, and log n names a choice of the model. -/

open Sys2Proof Sys2Proof.Machine

/-! ## Encodings -/

/-- 41_command_encoder.md R83, derived there from R77 and R82: the fields of an encoded word are the operands' bits, and
a word with bits 14, 13 and 0 clear is the encoding of its own fields. The six fields cover the word with no
overlap. -/
def Obligations.CommandFieldsRoundTrip : Prop :=
  (∀ (en conf : Byte) (r : BitVec 1),
    cmdFields (encodeCommand en conf r) =
      { srr := r, hbsel := 0#1, uldsc := 0#1, hben := en.extractLsb' 0 6, hbcnf := conf.extractLsb' 0 6, ovlo := 0#1 }) ∧
  (∀ w : Word, w.getLsbD 14 = false → w.getLsbD 13 = false → w.getLsbD 0 = false →
    encodeCommand ((cmdFields w).hben.setWidth 8) ((cmdFields w).hbcnf.setWidth 8) (cmdFields w).srr = w) ∧
  (∀ w : Word, packCommand (cmdFields w) = w) ∧ (∀ f : CmdFields, cmdFields (packCommand f) = f)

/-- 41_command_encoder.md R77, R78, R79 on the bits of the word (30_encoding.md R53): the reset flag is bit 15, staged
bit `i` of 0 to 5 is bit `7+i` or `1+i`, bits 14, 13 and 0 are 0, and bits 7:6 of the operands are discarded
(decisions D1, D3 and D4 of the spec). -/
def Obligations.StagedBitsReachTheirPlaces : Prop :=
  ∀ (en conf : Byte) (r : BitVec 1),
    (encodeCommand en conf r).getLsbD 15 = r.getLsbD 0 ∧
    (∀ i : Fin 6, (encodeCommand en conf r).getLsbD (7 + i.val) = en.getLsbD i.val ∧
      (encodeCommand en conf r).getLsbD (1 + i.val) = conf.getLsbD i.val) ∧
    (encodeCommand en conf r).getLsbD 14 = false ∧ (encodeCommand en conf r).getLsbD 13 = false ∧
    (encodeCommand en conf r).getLsbD 0 = false ∧
    (∀ en' conf' : Byte, en'.extractLsb' 0 6 = en.extractLsb' 0 6 → conf'.extractLsb' 0 6 = conf.extractLsb' 0 6 →
      encodeCommand en' conf' r = encodeCommand en conf r)

/-- 41_command_encoder.md R80: CMD_RESET is 0x8000, the reset strobe with every other field zero. -/
def Obligations.ResetWordIsTheStrobeAlone : Prop :=
  encodeCommand 0x00#8 0x00#8 1#1 = 0x8000#16 ∧ resetWord = 0x8000#16 ∧
    cmdFields 0x8000#16 = { srr := 1#1, hbsel := 0#1, uldsc := 0#1, hben := 0#6, hbcnf := 0#6, ovlo := 0#1 }

/-- 41_command_encoder.md R84: SERIALIZE gives the bytes `w[15:8]` and `w[7:0]`, the first byte first, and the rule's
two examples. -/
def Obligations.SerializeSplitsTheWord : Prop :=
  (∀ (w : Word) (i : Fin 8), (serialize w).1.getLsbD i.val = w.getLsbD (8 + i.val) ∧
    (serialize w).2.getLsbD i.val = w.getLsbD i.val) ∧
  serialize 0x0182#16 = (0x01#8, 0x82#8) ∧ serialize 0x8000#16 = (0x80#8, 0x00#8)

/-- 20_memory.md R40 and R41: the bus carries `w[15]` first and `w[0]` last, the first byte being `w[15:8]`, and the
same order received gives the word back (the receive order is decision D5 of the spec). -/
def Obligations.BusCarriesTheHighestBitFirst : Prop :=
  (∀ w : Word, busBits w = (List.range 16).map fun i => w.getLsbD (15 - i)) ∧
  (∀ w : Word, deserialize (serialize w).1 (serialize w).2 = w) ∧
  (∀ first second : Byte, serialize (deserialize first second) = (first, second))

/-- Decoding what the encoder writes gives the instruction back, every operand at every value. -/
def Obligations.DecodeInvertsEncode : Prop :=
  ∀ i : Instr, decode (encode i) = .ok i

/-- What decodes is the encoding of the instruction it decodes to: every raw form has one meaning. -/
def Obligations.EncodeInvertsDecode : Prop :=
  ∀ (e : Encoded) (i : Instr), decode e = .ok i → encode i = e

/-- 30_encoding.md R55, R59, R67: a request decodes exactly when it has the shape of R59, and a word exactly when it is
one of the two forms by their match and mask. The refusal of other raw forms is the model's (log 8). -/
def Obligations.DecodesExactlyTheTwoShapes : Prop :=
  ∀ e : Encoded, (∃ i, decode e = .ok i) ↔ e.wellFormed = true

/-- Words and requests written out from the spec's tables decode to what they stand for (95_test_vectors.md, D1, D6). -/
def Obligations.SpecWordsDecode : Prop :=
  decodeWord 0x8000#16 = .ok .cmdReset ∧
  decodeWord 0x0182#16 = .ok (.cmdConfig 0b000011#6 0b000001#6) ∧
  decodeWord 0x4000#16 = .error (.notEmitted 0x4000#16) ∧
  (∀ (bus : BusId) (cs : CsId), decodeRequest ⟨0b00#2, .session bus cs 5⟩ = .ok (.init bus cs 5)) ∧
  decodeRequest ⟨0b01#2, .output 3 (-1)⟩ = .ok (.set 3 (-1)) ∧
  decodeRequest ⟨0b10#2, .none⟩ = .ok .apply ∧
  decodeRequest ⟨0b11#2, .none⟩ = .ok .close

/-- The rows of the opcode table are disjoint: an encoding that meets another row's mask and match, of the same width,
has that very row. -/
def Obligations.NoEncodingMeetsAnotherRow : Prop :=
  ∀ i j : Instr, i.row.nbits = j.row.nbits → (encode i).tableBits &&& j.row.mask = j.row.value → i.row = j.row

/-- 20_memory.md R42: a frame of another length than two bytes is no instruction, and two bytes are decoded in the
transmit order. The form of the refusal is the model's (log 8). -/
def Obligations.FramesAreTwoBytes : Prop :=
  (∀ bytes : List Byte, bytes.length ≠ 2 → decodeFrame bytes = .error (.notAFrame bytes.length)) ∧
  (∀ w : Word, decodeFrame [(serialize w).1, (serialize w).2] = decodeWord w)

/-! ## The status word -/

/-- 42_status_decoder.md R85 and 30_encoding.md R58: each field is its bits of the word, and the six fields are the
whole word, none reserved. -/
def Obligations.StatusFieldsAreTheWholeWord : Prop :=
  (∀ s : Word,
    (statusDecode s).ocs.getLsbD 0 = s.getLsbD 15 ∧ (statusDecode s).psf.getLsbD 0 = s.getLsbD 14 ∧
    (statusDecode s).uld.getLsbD 0 = s.getLsbD 13 ∧ (statusDecode s).tw.getLsbD 0 = s.getLsbD 0 ∧
    (∀ i : Fin 6, (statusDecode s).hbst.getLsbD i.val = s.getLsbD (7 + i.val) ∧
      (statusDecode s).hbcr.getLsbD i.val = s.getLsbD (1 + i.val)) ∧
    packStatus (statusDecode s) = s) ∧
  (∀ f : StatusFields, statusDecode (packStatus f) = f)

/-- 42_status_decoder.md R86 as the complete table of its precedence order (first match wins, earlier checks suppress
later ones), on the fields of the status word and `w[6:1]`. -/
def Obligations.ClassifyIsTheTable : Prop :=
  ∀ w s : Word,
    let f := statusDecode s
    let m := f.hbcr = w.extractLsb' 1 6
    (classify w s = .configurationMismatch ↔ ¬ m) ∧
    (classify w s = .thermalWarning ↔ m ∧ f.tw = 1) ∧
    (classify w s = .powerSupplyFailure ↔ m ∧ f.tw = 0 ∧ f.psf = 1) ∧
    (classify w s = .overcurrentShutoff ↔ m ∧ f.tw = 0 ∧ f.psf = 0 ∧ f.ocs = 1) ∧
    (classify w s = .underLoad ↔ m ∧ f.tw = 0 ∧ f.psf = 0 ∧ f.ocs = 0 ∧ f.uld = 1) ∧
    (classify w s = .success ↔ m ∧ f.tw = 0 ∧ f.psf = 0 ∧ f.ocs = 0 ∧ f.uld = 0)

/-- 42_status_decoder.md R88: two replies that differ at most in `hbst` are classified alike, whatever was sent
(decision D17 of the spec; the places of the other fields are D2). -/
def Obligations.ClassifyIgnoresHbst : Prop :=
  ∀ w s s' : Word, (∀ i : Fin 16, (i.val < 7 ∨ 12 < i.val) → s.getLsbD i.val = s'.getLsbD i.val) →
    classify w s = classify w s'

/-- 70_reset_and_hazards.md R135, the echo: a reply that is the command word just sent decodes with `hbst` = `hben`,
`hbcr` = `hbcnf` and no fault bit, and is classified Success. -/
def Obligations.EchoedWordIsSuccess : Prop :=
  ∀ en conf : Byte,
    classify (configWord en conf) (configWord en conf) = .success ∧
    statusDecode (configWord en conf) =
      { ocs := 0#1, psf := 0#1, uld := 0#1, hbst := en.extractLsb' 0 6, hbcr := conf.extractLsb' 0 6, tw := 0#1 }

/-! ## The transport's primitives -/

/-- 00_scope.md R12: every call that is answered appends its one event, carrying the answer, and then the answer is
given back: TxBind's and TxWrite's Ok or Err, and TxWriteRead's Ok with the 16 bits or Err; TxRelease returns
nothing. -/
def Obligations.PrimitivesAppendOneEvent : Prop :=
  (∀ (s : State) (cfg : BindCfg) (r : Reply), s.drawn (.bind cfg) = some r →
    ∃ a : Ack, (txBind cfg s).2 = some a ∧ (txBind cfg s).1.trace = s.trace ++ [.bind cfg a] ∧
      (a = .err ↔ r = .err) ∧ (a = .ok → (txBind cfg s).1.bound = true)) ∧
  (∀ s : State, (txRelease s).trace = s.trace ++ [.release] ∧ (txRelease s).bound = false) ∧
  (∀ (s : State) (w : Word) (r : Reply), s.drawn (.write w) = some r →
    ∃ a : Ack, (txWrite w s).2 = some a ∧ (txWrite w s).1.trace = s.trace ++ [.write w a] ∧ (a = .err ↔ r = .err)) ∧
  (∀ (s : State) (w : Word) (r : Reply), s.drawn (.writeRead w) = some r →
    (txWriteRead w s).2 = some r ∧ (txWriteRead w s).1.trace = s.trace ++ [.writeRead w r])

/-! ## SET_OUTPUT -/

/-- 40_device_state.md R70 and R72, with R73 and R76: SET_OUTPUT from a state where no operation is running. A sticky
fault stays; outside READY it raises NotReady before it looks at its arguments; an argument out of range responds
InvalidArgument and writes no other state; else the pair becomes `11` and the direction's code, every other pair and
all other state stay, and the response is Success. The fault, the integer arguments and the Success are decisions
D13, D8 and D21 of the spec. -/
def Obligations.SetOutputFollowsItsRule : Prop :=
  ∀ (s : State) (axis d : Int), s.waiting = none →
    (∀ m, s.fault = some m → exec (.set axis d) s = .next s) ∧
    (s.fault = none → s.hs ≠ .ready →
      exec (.set axis d) s = .next { s with fault := some (.notReady .setOutput s.hs) }) ∧
    (s.fault = none → s.hs = .ready → (axis < 0 ∨ 3 < axis ∨ d < -1 ∨ 1 < d) →
      exec (.set axis d) s = .next { s with responses := s.responses ++ [.outcome .invalidArgument] }) ∧
    (∀ (a : Axis) (en conf : Byte), s.fault = none → s.handle = .ready ⟨en, conf⟩ → axis = (a.val : Int) → -1 ≤ d → d ≤ 1 →
      ∃ en' conf' : Byte,
        exec (.set axis d) s =
          .next { s with handle := .ready ⟨en', conf'⟩, responses := s.responses ++ [.outcome .success] } ∧
        getPair en' a = 0b11#2 ∧
        getPair conf' a = (if d = 1 then 0b01#2 else if d = -1 then 0b10#2 else 0b00#2) ∧
        ∀ b : Axis, b ≠ a → getPair en' b = getPair en b ∧ getPair conf' b = getPair conf b)

/-- 40_device_state.md R72: whatever SET_OUTPUT does, with arguments in range or not and in any handle state, every pair
but the one its axis names is after it as it was before, in both registers. -/
def Obligations.SetOutputKeepsTheOtherPairs : Prop :=
  ∀ (s t : State) (axis d : Int) (en conf : Byte), s.outEn = some en → s.outConf = some conf →
    exec (.set axis d) s = .next t →
    ∃ en' conf' : Byte, t.outEn = some en' ∧ t.outConf = some conf' ∧
      ∀ b : Axis, (b.val : Int) ≠ axis → getPair en' b = getPair en b ∧ getPair conf' b = getPair conf b

/-- A register is its four pairs (00_scope.md R14): the pairs of SetOutputFollowsItsRule fix both registers whole, and a
pair written reads back. -/
def Obligations.PairsAreTheWholeRegister : Prop :=
  (∀ r r' : Byte, (∀ a : Axis, getPair r a = getPair r' a) → r = r') ∧
  (∀ (r : Byte) (a : Axis) (v : BitVec 2), getPair (setPair r a v) a = v) ∧
  (∀ (r : Byte) (a b : Axis) (v : BitVec 2), b ≠ a → getPair (setPair r a v) b = getPair r b)

/-- 40_device_state.md R74: SET_OUTPUT makes no transport call; of two on one axis the last wins, and two on different
axes may be given in either order (their effect on the registers); an APPLY after a SET_OUTPUT sends no word but
that of the registers as they are then. -/
def Obligations.StagingMergesPerAxis : Prop :=
  (∀ (s t : State) (axis d : Int), exec (.set axis d) s = .next t → t.trace = s.trace ∧ t.waiting = none) ∧
  (∀ (s t u v : State) (a : Axis) (d₁ d₂ : Int), s.idle → s.hs = .ready → -1 ≤ d₁ → d₁ ≤ 1 → -1 ≤ d₂ → d₂ ≤ 1 →
    exec (.set (a.val : Int) d₁) s = .next t → exec (.set (a.val : Int) d₂) t = .next u →
    exec (.set (a.val : Int) d₂) s = .next v → u.outEn = v.outEn ∧ u.outConf = v.outConf) ∧
  (∀ (s t u v x : State) (a b : Axis) (d₁ d₂ : Int), a ≠ b → s.idle → s.hs = .ready → -1 ≤ d₁ → d₁ ≤ 1 →
    -1 ≤ d₂ → d₂ ≤ 1 →
    exec (.set (a.val : Int) d₁) s = .next t → exec (.set (b.val : Int) d₂) t = .next u →
    exec (.set (b.val : Int) d₂) s = .next v → exec (.set (a.val : Int) d₁) v = .next x →
    u.outEn = x.outEn ∧ u.outConf = x.outConf) ∧
  (∀ (s t u : State) (axis d : Int) (en conf : Byte), exec (.set axis d) s = .next t → t.outEn = some en →
    t.outConf = some conf → exec .apply t = .next u →
    ∃ events : List TxEvent, u.trace = s.trace ++ events ∧ ∀ w ∈ framesSent events, w = configWord en conf)

/-- 40_device_state.md R71, every column of its table: after SET_OUTPUT the pair of `out_conf` is the direction's code
on every axis, and for axes 0 to 2 the next command word drives half-bridges `2a` and `2a+1` as the direction says
(the two half-bridge columns are the rule's own derivation from R70 and R53). -/
def Obligations.DirectionDrivesItsHalfBridges : Prop :=
  ∀ (s t : State) (a : Axis) (d : Int) (en conf : Byte), s.idle → s.hs = .ready → -1 ≤ d → d ≤ 1 →
    exec (.set (a.val : Int) d) s = .next t → t.outEn = some en → t.outConf = some conf →
    getPair conf a = (if d = 1 then 0b01#2 else if d = -1 then 0b10#2 else 0b00#2) ∧
    ∀ h : a.val < 3,
      halfBridgeDrive (configWord en conf) ⟨2 * a.val, by omega⟩ = some (if d = 1 then .highSideOn else .lowSideOn) ∧
      halfBridgeDrive (configWord en conf) ⟨2 * a.val + 1, by omega⟩ = some (if d = -1 then .highSideOn else .lowSideOn)

/-- 70_reset_and_hazards.md R140 (and 40_device_state.md R73): `set a, 0` leaves pair `a` enabled with both
configuration bits 0, and no step that leaves the handle READY and waiting for nothing turns an enabled pair off:
only CLOSE does. -/
def Obligations.EnabledPairsStayEnabled : Prop :=
  (∀ (s t : State) (a : Axis), s.idle → s.hs = .ready → exec (.set (a.val : Int) 0) s = .next t →
    ∃ en conf : Byte, t.outEn = some en ∧ t.outConf = some conf ∧ getPair en a = 0b11#2 ∧ getPair conf a = 0b00#2) ∧
  (∀ (s t : State) (en : Byte), s.hs = .ready → s.outEn = some en → step s = .next t → t.hs = .ready →
    t.waiting = none →
    ∃ en' : Byte, t.outEn = some en' ∧ ∀ a : Axis, getPair en a = 0b11#2 → getPair en' a = 0b11#2)

/-- 40_device_state.md R75: SET_OUTPUT accepts axis 3 and writes bits 7:6 of both registers, and APPLY after it sends
the same word as before it (decision D3 of the spec). -/
def Obligations.AxisThreeNeverReachesTheWord : Prop :=
  ∀ (s : State) (d : Int) (en conf : Byte), s.idle → s.handle = .ready ⟨en, conf⟩ → -1 ≤ d → d ≤ 1 →
    ∃ en' conf' : Byte,
      exec (.set 3 d) s =
        .next { s with handle := .ready ⟨en', conf'⟩, responses := s.responses ++ [.outcome .success] } ∧
      en'.extractLsb' 6 2 = 0b11#2 ∧
      conf'.extractLsb' 6 2 = (if d = 1 then 0b01#2 else if d = -1 then 0b10#2 else 0b00#2) ∧
      configWord en' conf' = configWord en conf

/-! ## APPLY -/

/-- 43_transaction_sequencer.md R98 and R94: APPLY from a state where no operation is running. In READY the word encoded
from the staged registers is sent; an error ends it with TransportError; else the same word is sent again, an error
ends it with TransportError, and a reply is classified against the word. Nothing but the trace (and the model's own
answer and response lists) changes. The fault and the abort are decisions D13 and D16 of the spec. -/
def Obligations.ApplyFollowsItsRule : Prop :=
  ∀ s : State, s.waiting = none →
    (∀ m, s.fault = some m → exec .apply s = .next s) ∧
    (s.fault = none → s.hs ≠ .ready → exec .apply s = .next { s with fault := some (.notReady .apply s.hs) }) ∧
    (∀ en conf : Byte, s.fault = none → s.handle = .ready ⟨en, conf⟩ →
      let w := encodeCommand en conf 0#1
      (s.drawn (.write w) = some .err →
        exec .apply s =
          .next { s with
            answers := s.answers.tail, trace := s.trace ++ [.write w .err],
            responses := s.responses ++ [.outcome .transportError] }) ∧
      (∀ lost : Word, s.drawn (.write w) = some (.ok lost) →
        let s₁ : State := { s with answers := s.answers.tail, trace := s.trace ++ [.write w .ok] }
        (s₁.drawn (.writeRead w) = some .err →
          exec .apply s =
            .next { s₁ with
              answers := s₁.answers.tail, trace := s₁.trace ++ [.writeRead w .err],
              responses := s.responses ++ [.outcome .transportError] }) ∧
        (∀ reply : Word, s₁.drawn (.writeRead w) = some (.ok reply) →
          exec .apply s =
            .next { s₁ with
              answers := s₁.answers.tail, trace := s₁.trace ++ [.writeRead w (.ok reply)],
              responses := s.responses ++ [.outcome (classify w reply)] })))

/-- 43_transaction_sequencer.md R99: APPLY leaves the staged registers as they are, and two APPLY operations in a row
send one command word in every frame, four frames in all where every frame is answered Ok. R99 is the spec's own
derivation from R94 and R81. -/
def Obligations.RepeatedApplySendsTheSameWord : Prop :=
  ∀ (s t u : State) (en conf : Byte), s.idle → s.handle = .ready ⟨en, conf⟩ →
    exec .apply s = .next t → t.waiting = none → exec .apply t = .next u → u.waiting = none →
    u.outEn = some en ∧ u.outConf = some conf ∧
    ∃ events : List TxEvent, u.trace = s.trace ++ events ∧
      (∀ w ∈ framesSent events, w = configWord en conf) ∧
      (framesReceived events = framesSent events → (framesSent events).length = 4)

/-- 70_reset_and_hazards.md R137: what is staged for axis 3 has no influence on APPLY. Two READY states that differ at
most in bits 7:6 of the staged registers give the same trace, answers, response and wait. -/
def Obligations.ApplyCannotSeeAxisThree : Prop :=
  ∀ (s : State) (en conf en' conf' : Byte), s.idle →
    en.extractLsb' 0 6 = en'.extractLsb' 0 6 → conf.extractLsb' 0 6 = conf'.extractLsb' 0 6 →
    ∃ t : State,
      exec .apply { s with handle := .ready ⟨en, conf⟩ } = .next { t with handle := .ready ⟨en, conf⟩ } ∧
      exec .apply { s with handle := .ready ⟨en', conf'⟩ } = .next { t with handle := .ready ⟨en', conf'⟩ }

/-- 70_reset_and_hazards.md R134: where APPLY responds Success, its last event is a reply whose `hbcr` is the `hbcnf`
sent and whose four fault bits are 0. (That the reply's `hbst` plays no part is ClassifyIgnoresHbst.) The places of
the fields are decisions D1 and D2 of the spec (log 12). -/
def Obligations.ApplySuccessIsVerified : Prop :=
  ∀ (s t : State) (en conf : Byte), s.idle → s.handle = .ready ⟨en, conf⟩ →
    exec .apply s = .next t → t.responses = s.responses ++ [.outcome .success] →
    ∃ reply : Word,
      t.trace = s.trace ++ [.write (configWord en conf) .ok, .writeRead (configWord en conf) (.ok reply)] ∧
      reply.extractLsb' 1 6 = conf.extractLsb' 0 6 ∧ reply.getLsbD 0 = false ∧ reply.getLsbD 14 = false ∧
      reply.getLsbD 15 = false ∧ reply.getLsbD 13 = false

/-- 43_transaction_sequencer.md R106: after APPLY answers any outcome the handle is READY with no fault recorded, and
accepts SET_OUTPUT, APPLY and CLOSE: each answers a next state, and none raises the fault mark. -/
def Obligations.FaultOutcomeKeepsTheHandleReady : Prop :=
  ∀ (s t : State), s.idle → s.hs = .ready → exec .apply s = .next t → t.waiting = none →
    t.hs = .ready ∧ t.fault = none ∧ (∃ o, t.responses = s.responses ++ [.outcome o]) ∧
    ∀ (i : Instr) (op : HostOp), hostOpOf i = some op → op ≠ .init →
      ∃ u : State, exec i t = .next u ∧ u.fault = none

/-! ## INITIALIZE and CLOSE -/

/-- 43_transaction_sequencer.md R95 and R97 (with 20_memory.md R36): INITIALIZE from a state where no operation is
running. In UNINIT the session is bound with the fixed configuration; an error ends it with TransportError and no
other state written; else the session is bound and both registers are cleared, the reset frame 0x8000 is sent, and
its answer makes the handle READY with Success, or releases the session with TransportError. Decisions D9, D10, D11
and D13 of the spec. -/
def Obligations.InitializeFollowsItsRule : Prop :=
  ∀ (s : State) (bus : BusId) (cs : CsId) (gpioCs : Int), s.waiting = none →
    (∀ m, s.fault = some m → exec (.init bus cs gpioCs) s = .next s) ∧
    (s.fault = none → s.hs ≠ .uninit →
      exec (.init bus cs gpioCs) s = .next { s with fault := some (.notReady .init s.hs) }) ∧
    (s.fault = none → s.hs = .uninit →
      let cfg : BindCfg :=
        { bus := bus, cs := if gpioCs < 0 then .native cs else .gpio gpioCs, mode := 1, wordSize := 8,
          clockRate := Config.clockRate, bitOrder := .msbFirst }
      (s.drawn (.bind cfg) = some .err →
        exec (.init bus cs gpioCs) s =
          .next { s with
            answers := s.answers.tail, trace := s.trace ++ [.bind cfg .err],
            responses := s.responses ++ [.outcome .transportError] }) ∧
      (∀ lost : Word, s.drawn (.bind cfg) = some (.ok lost) →
        let s₁ : State :=
          { s with
            answers := s.answers.tail, trace := s.trace ++ [.bind cfg .ok], bound := true,
            handle := .uninit (some ⟨0x00#8, 0x00#8⟩) }
        (s₁.drawn (.write 0x8000#16) = some .err →
          exec (.init bus cs gpioCs) s =
            .next { s₁ with
              answers := s₁.answers.tail, trace := s₁.trace ++ [.write 0x8000#16 .err, .release], bound := false,
              responses := s.responses ++ [.outcome .transportError] }) ∧
        (∀ lost' : Word, s₁.drawn (.write 0x8000#16) = some (.ok lost') →
          exec (.init bus cs gpioCs) s =
            .next { s₁ with
              answers := s₁.answers.tail, trace := s₁.trace ++ [.write 0x8000#16 .ok],
              handle := .ready ⟨0x00#8, 0x00#8⟩,
              responses := s.responses ++ [.outcome .success] })))

/-- 43_transaction_sequencer.md R100, R101 and R107: CLOSE from a state where no operation is running. In UNINIT only
the handle state changes, to CLOSED; in READY both registers are cleared, 0x8000 is sent, and whatever the answer
the session is released and the handle CLOSED; the response is Done. Decisions D12, D13 and D14 of the spec. -/
def Obligations.CloseFollowsItsRule : Prop :=
  ∀ s : State, s.waiting = none →
    (∀ m, s.fault = some m → exec .close s = .next s) ∧
    (s.fault = none → s.hs = .closed → exec .close s = .next { s with fault := some (.notReady .close .closed) }) ∧
    (∀ registers : Option Staged, s.fault = none → s.handle = .uninit registers →
      exec .close s = .next { s with handle := .closed registers, responses := s.responses ++ [.done] }) ∧
    (s.fault = none → s.hs = .ready →
      let s₁ : State := { s with handle := .ready ⟨0x00#8, 0x00#8⟩ }
      ∀ r : Reply, s₁.drawn (.write 0x8000#16) = some r →
        exec .close s =
          .next { s₁ with
            answers := s.answers.tail,
            trace := s.trace ++ [.write 0x8000#16 (match r with | .ok _ => .ok | .err => .err), .release],
            bound := false, handle := .closed (some ⟨0x00#8, 0x00#8⟩), responses := s.responses ++ [.done] })

/-- 43_transaction_sequencer.md R96: INITIALIZE of an unbound handle answers TransportError where the bind is answered
Err, the handle staying UNINIT, and else the outcome of the power-on reset, the one frame 0x8000 sent after the
bind. The frame word is R93 under decision D1 of the spec (log 12). -/
def Obligations.InitializeAnswersItsReset : Prop :=
  ∀ (s t : State) (bus : BusId) (cs : CsId) (gpioCs : Int), s.idle → s.hs = .uninit →
    exec (.init bus cs gpioCs) s = .next t → t.waiting = none →
    (t.trace = s.trace ++ [.bind (bindCfg bus cs gpioCs) .err] ∧
      t.responses = s.responses ++ [.outcome .transportError] ∧ t.hs = .uninit) ∨
    (∃ (reset : Ack) (rest : List TxEvent),
      t.trace = s.trace ++ .bind (bindCfg bus cs gpioCs) .ok :: .write 0x8000#16 reset :: rest ∧ framesSent rest = [] ∧
      t.responses = s.responses ++ [.outcome (if reset = .ok then .success else .transportError)])

/-- 43_transaction_sequencer.md R107: from READY, under every answer of the transport, CLOSE completes: the handle is
CLOSED, the session released as the last event and no longer bound, and the response Done. The response Done is R100
under decision D14 of the spec, the frame word R93 under D1 (log 12). -/
def Obligations.CloseAlwaysCompletes : Prop :=
  ∀ (s : State) (r : Reply), s.idle → s.hs = .ready →
    ({ s with handle := .ready ⟨0x00#8, 0x00#8⟩ } : State).drawn (.write 0x8000#16) = some r →
    ∃ t : State, exec .close s = .next t ∧ t.hs = .closed ∧ t.bound = false ∧ t.idle ∧
      t.trace.getLast? = some .release ∧ t.responses = s.responses ++ [.done]

/-! ## The wire forms -/

/-- 41_command_encoder.md R80 with 43_transaction_sequencer.md R93: CMD_RESET with a session bound sends one write-only
frame 0x8000 and writes the trace only. That a wire form is run by itself is the model's (log 6). -/
def Obligations.CmdResetSendsItsFrame : Prop :=
  ∀ s : State, s.idle → s.bound = true →
    (s.drawn (.write 0x8000#16) = some .err →
      exec .cmdReset s = .next { s with answers := s.answers.tail, trace := s.trace ++ [.write 0x8000#16 .err] }) ∧
    (∀ lost : Word, s.drawn (.write 0x8000#16) = some (.ok lost) →
      exec .cmdReset s = .next { s with answers := s.answers.tail, trace := s.trace ++ [.write 0x8000#16 .ok] })

/-- 41_command_encoder.md R81 with 43_transaction_sequencer.md R94: CMD_CONFIG with a session bound sends its word, and
again where the first frame is answered Ok; it writes the trace only. That a wire form is run by itself is the
model's (log 6). -/
def Obligations.CmdConfigSendsItsFrames : Prop :=
  ∀ (s : State) (hben hbcnf : HbField), s.idle → s.bound = true →
    ∃ w : Word,
      cmdFields w = { srr := 0#1, hbsel := 0#1, uldsc := 0#1, hben := hben, hbcnf := hbcnf, ovlo := 0#1 } ∧
      (s.drawn (.write w) = some .err →
        exec (.cmdConfig hben hbcnf) s =
          .next { s with answers := s.answers.tail, trace := s.trace ++ [.write w .err] }) ∧
      (∀ lost : Word, s.drawn (.write w) = some (.ok lost) →
        let s₁ : State := { s with answers := s.answers.tail, trace := s.trace ++ [.write w .ok] }
        ∀ r : Reply, s₁.drawn (.writeRead w) = some r →
          exec (.cmdConfig hben hbcnf) s =
            .next { s₁ with answers := s₁.answers.tail, trace := s₁.trace ++ [.writeRead w r] })

/-- 10_state.md R25: with no session bound a wire form makes no transport call: it is refused by name (the model's
refusal, log 6), and in a faulted state nothing changes. -/
def Obligations.WireFormsNeedASession : Prop :=
  ∀ (s : State) (i : Instr), hostOpOf i = none → s.waiting = none →
    (s.fault = none → s.bound = false → exec i s = .refused .noSession) ∧
    (∀ m, s.fault = some m → exec i s = .next s)

/-! ## Faults and stops -/

/-- 60_exceptions.md R117 and 43_transaction_sequencer.md R103: the fault mark is written exactly by SET_OUTPUT or APPLY
in UNINIT or CLOSED, INITIALIZE in READY or CLOSED, and CLOSE in CLOSED, with the operation and the state as its
reason; then no other state is written, no transport call is made and no response is given, and the state is no
acceptable final one (decision D13 of the spec). -/
def Obligations.UndefinedUseIsTheOnlyFaultMark : Prop :=
  ∀ (i : Instr) (s : State), s.idle →
    (∀ op, hostOpOf i = some op →
      ((op = .setOutput ∨ op = .apply) ∧ s.hs ≠ .ready ∨ op = .init ∧ s.hs ≠ .uninit ∨ op = .close ∧ s.hs = .closed) →
      exec i s = .next { s with fault := some (.notReady op s.hs) }) ∧
    (∀ t, exec i s = .next t → t.fault ≠ none →
      ∃ op, hostOpOf i = some op ∧
        ((op = .setOutput ∨ op = .apply) ∧ s.hs ≠ .ready ∨ op = .init ∧ s.hs ≠ .uninit ∨
          op = .close ∧ s.hs = .closed) ∧
        t = { s with fault := some (.notReady op s.hs) } ∧ ¬ t.acceptableFinal)

/-- 10_state.md R27: in a faulted state every operation keeps the reason and changes nothing, no step clears the mark,
and the state is not an acceptable final one. That the wire forms too change nothing in a faulted state is the
model's choice (log 6): R27 speaks of host operations. The mark is decision D13 of the spec. -/
def Obligations.FaultMarkIsSticky : Prop :=
  ∀ (s : State) (m : FaultMark), s.fault = some m →
    (∀ i : Instr, s.waiting = none → exec i s = .next s) ∧
    (∀ t, step s = .next t → t.fault = some m) ∧
    ¬ s.acceptableFinal

/-- 20_memory.md R48: an operation whose transport call is never answered hangs. It has written what its rule writes
before that call, the call appends no event, no response is given, and `waiting` names the call. The form is the
model's (log 4). -/
def Obligations.SilentCallLeavesTheOperationWaiting : Prop :=
  ∀ s : State, s.idle →
    (∀ en conf : Byte, s.handle = .ready ⟨en, conf⟩ →
      let w := configWord en conf
      let s₁ : State := { s with answers := s.answers.tail, trace := s.trace ++ [.write w .ok] }
      (s.drawn (.write w) = none →
        exec .apply s = .next { s with answers := s.answers.tail, waiting := some (.write w) }) ∧
      (∀ lost : Word, s.drawn (.write w) = some (.ok lost) → s₁.drawn (.writeRead w) = none →
        exec .apply s = .next { s₁ with answers := s₁.answers.tail, waiting := some (.writeRead w) })) ∧
    (∀ (bus : BusId) (cs : CsId) (gpioCs : Int), s.hs = .uninit →
      let cfg := bindCfg bus cs gpioCs
      let s₁ : State :=
        { s with
          answers := s.answers.tail, trace := s.trace ++ [.bind cfg .ok], bound := true,
          handle := .uninit (some ⟨0x00#8, 0x00#8⟩) }
      (s.drawn (.bind cfg) = none →
        exec (.init bus cs gpioCs) s = .next { s with answers := s.answers.tail, waiting := some (.bind cfg) }) ∧
      (∀ lost : Word, s.drawn (.bind cfg) = some (.ok lost) → s₁.drawn (.write 0x8000#16) = none →
        exec (.init bus cs gpioCs) s =
          .next { s₁ with answers := s₁.answers.tail, waiting := some (.write 0x8000#16) })) ∧
    (s.hs = .ready →
      let s₁ : State := { s with handle := .ready ⟨0x00#8, 0x00#8⟩ }
      s₁.drawn (.write 0x8000#16) = none →
        exec .close s = .next { s₁ with answers := s.answers.tail, waiting := some (.write 0x8000#16) }) ∧
    (s.bound = true → s.drawn (.write 0x8000#16) = none →
      exec .cmdReset s = .next { s with answers := s.answers.tail, waiting := some (.write 0x8000#16) }) ∧
    (∀ hben hbcnf : HbField, s.bound = true →
      let w := packCommand ⟨0, 0, 0, hben, hbcnf, 0⟩
      let s₁ : State := { s with answers := s.answers.tail, trace := s.trace ++ [.write w .ok] }
      (s.drawn (.write w) = none →
        exec (.cmdConfig hben hbcnf) s = .next { s with answers := s.answers.tail, waiting := some (.write w) }) ∧
      (∀ lost : Word, s.drawn (.write w) = some (.ok lost) → s₁.drawn (.writeRead w) = none →
        exec (.cmdConfig hben hbcnf) s =
          .next { s₁ with answers := s₁.answers.tail, waiting := some (.writeRead w) }))

/-- 20_memory.md R47 and R48: while an operation waits for a call that is never answered, every further instruction is
refused by name and no step ends the wait. The forms of the two stops are the model's (log 4). -/
def Obligations.WaitingAdmitsNothing : Prop :=
  ∀ (s : State) (call : TxCall), s.waiting = some call →
    (∀ i : Instr, exec i s = .refused .overlappingOperation) ∧ step s = .fault (.transportSilent call)

/-- 10_state.md R34: a staged register that holds no value is never read as one. SET_OUTPUT and APPLY, the only operations
that read the registers, then fault as R103 says, whatever their arguments: the sticky mark is written, and no value
comes into being. It is so in every state whose registers hold none, none of which is READY; INITIALIZE alone leaves
them holding values, 0x00 in both. That no state holds one register and lacks the other is the form of log 1. The
fault is decision D13 of the spec. -/
def Obligations.UnwrittenRegisterReadFaults : Prop :=
  ∀ s : State, (s.outEn = none ↔ s.outConf = none) ∧
    (s.idle → s.outEn = none →
      s.hs ≠ .ready ∧
      (∀ axis d : Int, exec (.set axis d) s = .next { s with fault := some (.notReady .setOutput s.hs) }) ∧
      exec .apply s = .next { s with fault := some (.notReady .apply s.hs) } ∧
      ∀ (i : Instr) (t : State), exec i s = .next t → t.outEn ≠ none →
        (∃ bus cs gpioCs, i = .init bus cs gpioCs) ∧ t.outEn = some 0x00#8 ∧ t.outConf = some 0x00#8)

/-! ## The machine -/

/-- A step takes the placed command word, else the oldest host request, and runs what it decodes to on the state without
it; with nothing issued the engine is idle (00_scope.md R6); a raw form that is no instruction is refused by name.
How operations and wire words are issued is the model's (logs 5, 6). -/
def Obligations.StepRunsTheIssuedInstruction : Prop :=
  ∀ s : State, s.waiting = none →
    (∀ (w : Word) (i : Instr), s.wireWord = some w → decodeWord w = .ok i →
      step s = exec i { s with wireWord := none }) ∧
    (∀ (r : HostRequest) (rest : List HostRequest) (i : Instr), s.wireWord = none → s.requests = r :: rest →
      decodeRequest r = .ok i → step s = exec i { s with requests := rest }) ∧
    (∀ (w : Word) (e : DecodeError), s.wireWord = some w → decodeWord w = .error e →
      step s = .refused (.undecodable e)) ∧
    (∀ (r : HostRequest) (rest : List HostRequest) (e : DecodeError), s.wireWord = none → s.requests = r :: rest →
      decodeRequest r = .error e → step s = .refused (.undecodable e)) ∧
    (s.wireWord = none → s.requests = [] → step s = .next s)

/-- 10_state.md R33 and 70_reset_and_hazards.md R129, the values before INITIALIZE that the spec gives. -/
def Obligations.ResetIsAFreshHandle : Prop :=
  State.reset.hs = .uninit ∧ State.reset.outEn = none ∧ State.reset.outConf = none ∧ State.reset.bound = false ∧
    State.reset.fault = none ∧ State.reset.trace = []

/-- The state after reset meets both invariants. -/
def Obligations.ResetMeetsTheInvariants : Prop :=
  State.reset.Inv ∧ State.reset.HostInv

/-- 10_state.md R25, R31, R32 and 30_encoding.md R55: every step keeps the engine's invariant, from every state that
meets it. -/
def Obligations.StepKeepsTheInvariant : Prop :=
  ∀ s t : State, s.Inv → step s = .next t → t.Inv

/-- 30_encoding.md R55 with 10_state.md R31, R32: in a run that the host alone drives, every frame sent is 0x8000 or a
CMD_CONFIG whose enable pairs are `00` or `11` and whose configuration pairs are not `11`, and `00` where disabled. -/
def Obligations.StepKeepsTheHostInvariant : Prop :=
  ∀ s t : State, s.HostInv → step s = .next t → t.HostInv

/-- 10_state.md R34: the staged registers hold a value exactly from the first bind answered Ok on; every step keeps
this, and it holds at reset. -/
def Obligations.RegistersHoldValuesFromTheFirstBind : Prop :=
  let written (s : State) : Prop :=
    (s.outEn.isSome = true ↔ ∃ cfg, TxEvent.bind cfg .ok ∈ s.trace) ∧
    (s.outConf.isSome = true ↔ ∃ cfg, TxEvent.bind cfg .ok ∈ s.trace)
  written State.reset ∧ ∀ s t : State, s.Inv → written s → step s = .next t → written t

/-- 10_state.md R28 and 43_transaction_sequencer.md R110: a step appends events to the trace, at most three, and
rewrites none. -/
def Obligations.TraceGrowsByAtMostThree : Prop :=
  ∀ s t : State, step s = .next t → ∃ events : List TxEvent, t.trace = s.trace ++ events ∧ events.length ≤ 3

/-- 43_transaction_sequencer.md R110: where every coming answer is an answer, every host operation of an engine that is
not waiting completes. The script and the wait are the model's (logs 3, 4). -/
def Obligations.OperationsEndWhereTheTransportAnswers : Prop :=
  ∀ (s : State) (i : Instr) (op : HostOp), hostOpOf i = some op → s.waiting = none →
    (∀ a ∈ s.answers, a ≠ .silent) →
    ∃ t, exec i s = .next t ∧ t.waiting = none

/-- 30_encoding.md R61: a host operation of an idle engine gives exactly one response, or the fault mark and no
response, or waits for its transport call and has given none yet. The wait is the model's (log 4). -/
def Obligations.OneResponsePerOperation : Prop :=
  ∀ (s t : State) (i : Instr) (op : HostOp), hostOpOf i = some op → s.idle → exec i s = .next t →
    (t.fault = none ∧ t.waiting = none ∧ ∃ r, t.responses = s.responses ++ [r]) ∨
    (t.fault ≠ none ∧ t.waiting = none ∧ t.responses = s.responses) ∨
    (t.fault = none ∧ t.waiting ≠ none ∧ t.responses = s.responses)

/-- 43_transaction_sequencer.md R102 and 60_exceptions.md R115: the transition table of the handle state, by the
response of an operation that has completed without a fault. Decisions D12, D13 and D26 of the spec. -/
def Obligations.HandleFollowsTheTransitionTable : Prop :=
  ∀ (s t : State) (i : Instr) (op : HostOp), hostOpOf i = some op → s.idle → exec i s = .next t → t.idle →
    ∃ r, t.responses = s.responses ++ [r] ∧
      ((op = .init ∧ s.hs = .uninit ∧ r = .outcome .transportError ∧ t.hs = .uninit ∧ (s.bound = false → t.bound = false)) ∨
       (op = .init ∧ s.hs = .uninit ∧ r = .outcome .success ∧ t.hs = .ready ∧ t.bound = true) ∨
       (op = .close ∧ s.hs = .uninit ∧ r = .done ∧ t.hs = .closed ∧ t.trace = s.trace) ∨
       (op = .setOutput ∧ s.hs = .ready ∧ (r = .outcome .success ∨ r = .outcome .invalidArgument) ∧ t.hs = .ready) ∨
       (op = .apply ∧ s.hs = .ready ∧ (∃ o, r = .outcome o ∧ o ≠ .invalidArgument) ∧ t.hs = .ready) ∨
       (op = .close ∧ s.hs = .ready ∧ r = .done ∧ t.hs = .closed ∧ t.bound = false))

/-- 43_transaction_sequencer.md R104, by the table of R108, which the spec derives from R93 to R101 and R70: each
operation makes exactly the transport calls its rule lists, path by path, and no more; after a failed frame no frame
is sent. It rests on decisions D1 (log 12), D11, D12, D13 (log 2) and D16 of the spec. -/
def Obligations.EventsOfEachOperation : Prop :=
  ∀ (s t : State) (i : Instr) (op : HostOp), hostOpOf i = some op → s.waiting = none → exec i s = .next t →
    t.waiting = none →
    ∃ events : List TxEvent, t.trace = s.trace ++ events ∧
      ((∃ bus cs gpioCs, i = .init bus cs gpioCs ∧
          (events = [.bind (bindCfg bus cs gpioCs) .err] ∨
           events = [.bind (bindCfg bus cs gpioCs) .ok, .write 0x8000#16 .err, .release] ∨
           events = [.bind (bindCfg bus cs gpioCs) .ok, .write 0x8000#16 .ok])) ∨
       (op = .setOutput ∧ events = []) ∨
       (op = .apply ∧ ∃ en conf, s.outEn = some en ∧ s.outConf = some conf ∧
          (events = [.write (configWord en conf) .err] ∨
           ∃ r : Reply, events = [.write (configWord en conf) .ok, .writeRead (configWord en conf) r])) ∨
       (op = .close ∧ s.hs = .ready ∧ ∃ a, events = [.write 0x8000#16 a, .release]) ∨
       (op = .close ∧ s.hs = .uninit ∧ events = []) ∨
       (t.fault ≠ none ∧ events = [])) ∧
      ∀ (before rest : List TxEvent) (e : TxEvent), events = before ++ e :: rest → sentWord e ≠ none →
        receivedWord e = none → framesSent rest = []

/-- 10_state.md R20: CLOSED is terminal, no step leaves it. -/
def Obligations.ClosedIsTerminal : Prop :=
  ∀ s t : State, s.hs = .closed → step s = .next t → t.hs = .closed

/-- 70_reset_and_hazards.md R130: a step reaches READY from another handle state only by running an INITIALIZE from
UNINIT whose bind and reset frame were both answered Ok. The frame word is R131 and R93 under decision D1 of the
spec (log 12); the form in which an operation is issued is the model's (log 5). -/
def Obligations.OnlyInitializeReachesReady : Prop :=
  ∀ s t : State, s.hs ≠ .ready → step s = .next t → t.hs = .ready →
    ∃ (bus : BusId) (cs : CsId) (gpioCs : Int) (u : State) (e : Encoded),
      s.nextIssue = some (e, u) ∧ decode e = .ok (.init bus cs gpioCs) ∧ s.hs = .uninit ∧
      t.trace = s.trace ++ [.bind (bindCfg bus cs gpioCs) .ok, .write 0x8000#16 .ok]

/-- 70_reset_and_hazards.md R136: a handle that is READY and stays READY never sends a frame with `srr` = 1, in a run
that the host alone drives; and of the host operations only INITIALIZE and CLOSE send such a frame
(42_status_decoder.md R92). -/
def Obligations.ReadyHandleNeverStrobes : Prop :=
  (∀ (s t : State) (events : List TxEvent), s.wireWord = none → s.hs = .ready → step s = .next t → t.hs = .ready →
    t.trace = s.trace ++ events → ∀ w ∈ framesSent events, w.getLsbD 15 = false) ∧
  (∀ (s t : State) (events : List TxEvent) (i : Instr) (op : HostOp), hostOpOf i = some op → exec i s = .next t →
    t.trace = s.trace ++ events → (∃ w ∈ framesSent events, w.getLsbD 15 = true) → op = .init ∨ op = .close)

/-- 10_state.md R25: the bind configuration is constant while bound: no step changes it while the handle stays READY,
and it is what INITIALIZE passed. -/
def Obligations.BoundSessionKeepsItsConfiguration : Prop :=
  (∀ s t : State, s.hs = .ready → t.hs = .ready → step s = .next t → boundCfg t.trace = boundCfg s.trace) ∧
  (∀ (s t : State) (bus : BusId) (cs : CsId) (gpioCs : Int), s.idle → s.hs = .uninit →
    exec (.init bus cs gpioCs) s = .next t → t.hs = .ready → boundCfg t.trace = some (bindCfg bus cs gpioCs))

/-! ## The reference echo device and the host-program text -/

/-- 95_test_vectors.md section 4 with 20_memory.md R52: APPLY against the echo device with no fault latched or raised
responds Success, from every READY state and whatever the device's previous reply. -/
def Obligations.ApplyAgainstTheEchoDeviceSucceeds : Prop :=
  ∀ (s : State) (en conf : Byte) (prev : Word) (rest : List Answer), s.idle →
    s.handle = .ready ⟨en, conf⟩ →
    let w := configWord en conf
    s.answers = echoScript [(.write w, noFaults), (.writeRead w, noFaults)] ⟨prev, noFaults⟩ ++ rest →
    exec .apply s =
      .next { s with
        answers := rest, trace := s.trace ++ [.write w .ok, .writeRead w (.ok w)],
        responses := s.responses ++ [.outcome .success] }

/-- 70_reset_and_hazards.md R136 on the echo device: a fault bit latched before or raised at the first frame makes APPLY
report a fault, and it stays latched until a frame with `srr` = 1. -/
def Obligations.EchoDeviceKeepsItsLatches : Prop :=
  (∀ (s t : State) (en conf : Byte) (d : EchoDevice) (inject : FaultBits) (rest : List Answer), s.idle →
    s.handle = .ready ⟨en, conf⟩ → joinFaults d.latched inject ≠ noFaults →
    s.answers =
      echoScript [(.write (configWord en conf), inject), (.writeRead (configWord en conf), noFaults)] d ++ rest →
    exec .apply s = .next t →
    ∃ o, t.responses = s.responses ++ [.outcome o] ∧
      (o = .thermalWarning ∨ o = .powerSupplyFailure ∨ o = .overcurrentShutoff ∨ o = .underLoad)) ∧
  (∀ (d : EchoDevice) (inject : FaultBits) (w : Word),
    (w.getLsbD 15 = false → (echoFrame inject w d).2.latched = joinFaults d.latched inject) ∧
    (w.getLsbD 15 = true → (echoFrame inject w d).2 = ⟨0, noFaults⟩))

/-- 30_encoding.md R65: a line that assembles to a request assembles to exactly one, which has the shape of R59 and
decodes to a host operation; text after a semicolon is a comment, whatever stands before it. The text is decision
D25 of the spec; its white space is the model's (log 11). -/
def Obligations.AssembledLinesAreHostRequests : Prop :=
  (∀ (line : List Char) (r : HostRequest), assembleLine line = .ok (some r) →
    r.wellFormed = true ∧ ∃ i op, decodeRequest r = .ok i ∧ hostOpOf i = some op) ∧
  (∀ line comment : List Char, assembleLine (line ++ ';' :: comment) = assembleLine line)
end

