-- ==== Sys2Proof/Laws/State.lean ====
section
/-! SUPPORT. One lemma per field and per accessor for every state update, so that no later proof unfolds a record update;
before them, the handle's own. -/

namespace Sys2Proof.Machine

section

variable (r : Staged) (h : Handle)

@[simp] theorem Handle.write_state : (h.write r).state = h.state := by cases h <;> rfl
@[simp] theorem Handle.write_staged : (h.write r).staged = some r := by cases h <;> rfl

end

/-- A READY handle has its registers (10_state.md R34). -/
theorem State.hs_ready {s : State} : s.hs = .ready ↔ ∃ r, s.handle = .ready r := by
  cases h : s.handle <;> simp [State.hs, Handle.state, h]

theorem State.hs_uninit {s : State} : s.hs = .uninit ↔ ∃ r, s.handle = .uninit r := by
  cases h : s.handle <;> simp [State.hs, Handle.state, h]

theorem State.hs_closed {s : State} : s.hs = .closed ↔ ∃ r, s.handle = .closed r := by
  cases h : s.handle <;> simp [State.hs, Handle.state, h]

section

variable {s : State} {r : Staged}

theorem State.ready_hs (h : s.handle = .ready r) : s.hs = .ready := by simp [State.hs, Handle.state, h]
theorem State.ready_outEn (h : s.handle = .ready r) : s.outEn = some r.outEn := by simp [State.outEn, Handle.staged, h]
theorem State.ready_outConf (h : s.handle = .ready r) : s.outConf = some r.outConf := by
  simp [State.outConf, Handle.staged, h]

end

@[simp] theorem State.reset_hs : State.reset.hs = .uninit := rfl
@[simp] theorem State.reset_outEn : State.reset.outEn = none := rfl
@[simp] theorem State.reset_outConf : State.reset.outConf = none := rfl

section

variable (s : State) (r : Response)

@[simp] theorem State.respond_handle : (s.respond r).handle = s.handle := rfl
@[simp] theorem State.respond_bound : (s.respond r).bound = s.bound := rfl
@[simp] theorem State.respond_fault : (s.respond r).fault = s.fault := rfl
@[simp] theorem State.respond_trace : (s.respond r).trace = s.trace := rfl
@[simp] theorem State.respond_waiting : (s.respond r).waiting = s.waiting := rfl
@[simp] theorem State.respond_requests : (s.respond r).requests = s.requests := rfl
@[simp] theorem State.respond_wireWord : (s.respond r).wireWord = s.wireWord := rfl
@[simp] theorem State.respond_answers : (s.respond r).answers = s.answers := rfl
@[simp] theorem State.respond_responses : (s.respond r).responses = s.responses ++ [r] := rfl
@[simp] theorem State.respond_hs : (s.respond r).hs = s.hs := rfl
@[simp] theorem State.respond_outEn : (s.respond r).outEn = s.outEn := rfl
@[simp] theorem State.respond_outConf : (s.respond r).outConf = s.outConf := rfl

end

section

variable (s : State) (m : FaultMark)

@[simp] theorem State.raise_handle : (s.raise m).handle = s.handle := rfl
@[simp] theorem State.raise_bound : (s.raise m).bound = s.bound := rfl
@[simp] theorem State.raise_fault : (s.raise m).fault = some m := rfl
@[simp] theorem State.raise_trace : (s.raise m).trace = s.trace := rfl
@[simp] theorem State.raise_waiting : (s.raise m).waiting = s.waiting := rfl
@[simp] theorem State.raise_requests : (s.raise m).requests = s.requests := rfl
@[simp] theorem State.raise_wireWord : (s.raise m).wireWord = s.wireWord := rfl
@[simp] theorem State.raise_answers : (s.raise m).answers = s.answers := rfl
@[simp] theorem State.raise_responses : (s.raise m).responses = s.responses := rfl
@[simp] theorem State.raise_hs : (s.raise m).hs = s.hs := rfl
@[simp] theorem State.raise_outEn : (s.raise m).outEn = s.outEn := rfl
@[simp] theorem State.raise_outConf : (s.raise m).outConf = s.outConf := rfl

end

section

variable (s : State) (r : Staged)

@[simp] theorem State.stage_handle : (s.stage r).handle = s.handle.write r := rfl
@[simp] theorem State.stage_bound : (s.stage r).bound = s.bound := rfl
@[simp] theorem State.stage_fault : (s.stage r).fault = s.fault := rfl
@[simp] theorem State.stage_trace : (s.stage r).trace = s.trace := rfl
@[simp] theorem State.stage_waiting : (s.stage r).waiting = s.waiting := rfl
@[simp] theorem State.stage_requests : (s.stage r).requests = s.requests := rfl
@[simp] theorem State.stage_wireWord : (s.stage r).wireWord = s.wireWord := rfl
@[simp] theorem State.stage_answers : (s.stage r).answers = s.answers := rfl
@[simp] theorem State.stage_responses : (s.stage r).responses = s.responses := rfl
@[simp] theorem State.stage_hs : (s.stage r).hs = s.hs := Handle.write_state r s.handle
@[simp] theorem State.stage_outEn : (s.stage r).outEn = some r.outEn := by simp [State.outEn]
@[simp] theorem State.stage_outConf : (s.stage r).outConf = some r.outConf := by simp [State.outConf]

end

section

variable (s : State) (r : Staged)

@[simp] theorem State.openHandle_handle : (s.openHandle r).handle = .ready r := rfl
@[simp] theorem State.openHandle_bound : (s.openHandle r).bound = s.bound := rfl
@[simp] theorem State.openHandle_fault : (s.openHandle r).fault = s.fault := rfl
@[simp] theorem State.openHandle_trace : (s.openHandle r).trace = s.trace := rfl
@[simp] theorem State.openHandle_waiting : (s.openHandle r).waiting = s.waiting := rfl
@[simp] theorem State.openHandle_requests : (s.openHandle r).requests = s.requests := rfl
@[simp] theorem State.openHandle_wireWord : (s.openHandle r).wireWord = s.wireWord := rfl
@[simp] theorem State.openHandle_answers : (s.openHandle r).answers = s.answers := rfl
@[simp] theorem State.openHandle_responses : (s.openHandle r).responses = s.responses := rfl
@[simp] theorem State.openHandle_hs : (s.openHandle r).hs = .ready := rfl
@[simp] theorem State.openHandle_outEn : (s.openHandle r).outEn = some r.outEn := rfl
@[simp] theorem State.openHandle_outConf : (s.openHandle r).outConf = some r.outConf := rfl

end

section

variable (s : State)

@[simp] theorem State.closeHandle_handle : (s.closeHandle).handle = .closed s.handle.staged := rfl
@[simp] theorem State.closeHandle_bound : (s.closeHandle).bound = s.bound := rfl
@[simp] theorem State.closeHandle_fault : (s.closeHandle).fault = s.fault := rfl
@[simp] theorem State.closeHandle_trace : (s.closeHandle).trace = s.trace := rfl
@[simp] theorem State.closeHandle_waiting : (s.closeHandle).waiting = s.waiting := rfl
@[simp] theorem State.closeHandle_requests : (s.closeHandle).requests = s.requests := rfl
@[simp] theorem State.closeHandle_wireWord : (s.closeHandle).wireWord = s.wireWord := rfl
@[simp] theorem State.closeHandle_answers : (s.closeHandle).answers = s.answers := rfl
@[simp] theorem State.closeHandle_responses : (s.closeHandle).responses = s.responses := rfl
@[simp] theorem State.closeHandle_hs : (s.closeHandle).hs = .closed := rfl
@[simp] theorem State.closeHandle_outEn : (s.closeHandle).outEn = s.outEn := rfl
@[simp] theorem State.closeHandle_outConf : (s.closeHandle).outConf = s.outConf := rfl

end

section

variable (s : State)

@[simp] theorem State.popAnswer_handle : (s.popAnswer).handle = s.handle := rfl
@[simp] theorem State.popAnswer_bound : (s.popAnswer).bound = s.bound := rfl
@[simp] theorem State.popAnswer_fault : (s.popAnswer).fault = s.fault := rfl
@[simp] theorem State.popAnswer_trace : (s.popAnswer).trace = s.trace := rfl
@[simp] theorem State.popAnswer_waiting : (s.popAnswer).waiting = s.waiting := rfl
@[simp] theorem State.popAnswer_requests : (s.popAnswer).requests = s.requests := rfl
@[simp] theorem State.popAnswer_wireWord : (s.popAnswer).wireWord = s.wireWord := rfl
@[simp] theorem State.popAnswer_answers : (s.popAnswer).answers = s.answers.tail := rfl
@[simp] theorem State.popAnswer_responses : (s.popAnswer).responses = s.responses := rfl
@[simp] theorem State.popAnswer_hs : (s.popAnswer).hs = s.hs := rfl
@[simp] theorem State.popAnswer_outEn : (s.popAnswer).outEn = s.outEn := rfl
@[simp] theorem State.popAnswer_outConf : (s.popAnswer).outConf = s.outConf := rfl

end

section

variable (s : State) (e : TxEvent)

@[simp] theorem State.logEvent_handle : (s.logEvent e).handle = s.handle := rfl
@[simp] theorem State.logEvent_bound : (s.logEvent e).bound = s.bound := rfl
@[simp] theorem State.logEvent_fault : (s.logEvent e).fault = s.fault := rfl
@[simp] theorem State.logEvent_trace : (s.logEvent e).trace = s.trace ++ [e] := rfl
@[simp] theorem State.logEvent_waiting : (s.logEvent e).waiting = s.waiting := rfl
@[simp] theorem State.logEvent_requests : (s.logEvent e).requests = s.requests := rfl
@[simp] theorem State.logEvent_wireWord : (s.logEvent e).wireWord = s.wireWord := rfl
@[simp] theorem State.logEvent_answers : (s.logEvent e).answers = s.answers := rfl
@[simp] theorem State.logEvent_responses : (s.logEvent e).responses = s.responses := rfl
@[simp] theorem State.logEvent_hs : (s.logEvent e).hs = s.hs := rfl
@[simp] theorem State.logEvent_outEn : (s.logEvent e).outEn = s.outEn := rfl
@[simp] theorem State.logEvent_outConf : (s.logEvent e).outConf = s.outConf := rfl

end

section

variable (s : State) (call : TxCall)

@[simp] theorem State.hang_handle : (s.hang call).handle = s.handle := rfl
@[simp] theorem State.hang_bound : (s.hang call).bound = s.bound := rfl
@[simp] theorem State.hang_fault : (s.hang call).fault = s.fault := rfl
@[simp] theorem State.hang_trace : (s.hang call).trace = s.trace := rfl
@[simp] theorem State.hang_waiting : (s.hang call).waiting = some call := rfl
@[simp] theorem State.hang_requests : (s.hang call).requests = s.requests := rfl
@[simp] theorem State.hang_wireWord : (s.hang call).wireWord = s.wireWord := rfl
@[simp] theorem State.hang_answers : (s.hang call).answers = s.answers := rfl
@[simp] theorem State.hang_responses : (s.hang call).responses = s.responses := rfl
@[simp] theorem State.hang_hs : (s.hang call).hs = s.hs := rfl
@[simp] theorem State.hang_outEn : (s.hang call).outEn = s.outEn := rfl
@[simp] theorem State.hang_outConf : (s.hang call).outConf = s.outConf := rfl

end

section

variable (s : State) (b : Bool)

@[simp] theorem State.setBound_handle : (s.setBound b).handle = s.handle := rfl
@[simp] theorem State.setBound_bound : (s.setBound b).bound = b := rfl
@[simp] theorem State.setBound_fault : (s.setBound b).fault = s.fault := rfl
@[simp] theorem State.setBound_trace : (s.setBound b).trace = s.trace := rfl
@[simp] theorem State.setBound_waiting : (s.setBound b).waiting = s.waiting := rfl
@[simp] theorem State.setBound_requests : (s.setBound b).requests = s.requests := rfl
@[simp] theorem State.setBound_wireWord : (s.setBound b).wireWord = s.wireWord := rfl
@[simp] theorem State.setBound_answers : (s.setBound b).answers = s.answers := rfl
@[simp] theorem State.setBound_responses : (s.setBound b).responses = s.responses := rfl
@[simp] theorem State.setBound_hs : (s.setBound b).hs = s.hs := rfl
@[simp] theorem State.setBound_outEn : (s.setBound b).outEn = s.outEn := rfl
@[simp] theorem State.setBound_outConf : (s.setBound b).outConf = s.outConf := rfl

end

section

variable (s : State)

@[simp] theorem txRelease_handle : (txRelease s).handle = s.handle := rfl
@[simp] theorem txRelease_bound : (txRelease s).bound = false := rfl
@[simp] theorem txRelease_fault : (txRelease s).fault = s.fault := rfl
@[simp] theorem txRelease_trace : (txRelease s).trace = s.trace ++ [.release] := rfl
@[simp] theorem txRelease_waiting : (txRelease s).waiting = s.waiting := rfl
@[simp] theorem txRelease_requests : (txRelease s).requests = s.requests := rfl
@[simp] theorem txRelease_wireWord : (txRelease s).wireWord = s.wireWord := rfl
@[simp] theorem txRelease_answers : (txRelease s).answers = s.answers := rfl
@[simp] theorem txRelease_responses : (txRelease s).responses = s.responses := rfl
@[simp] theorem txRelease_hs : (txRelease s).hs = s.hs := rfl
@[simp] theorem txRelease_outEn : (txRelease s).outEn = s.outEn := rfl
@[simp] theorem txRelease_outConf : (txRelease s).outConf = s.outConf := rfl

end

end Sys2Proof.Machine
end

