-- ==== Sys2Proof/Laws/Ops.lean ====
section
/-! SUPPORT. One lemma per shared operation, saying once what it can do, for proofs to cite. -/

namespace Sys2Proof.Machine

/-- A transport call that is answered: one script entry used, one event appended. -/
theorem transact_answered {call : TxCall} {s : State} {r : Reply} (h : s.drawn call = some r) :
    transact call s = (s.popAnswer.logEvent (eventOf call r), some r) := by
  simp [transact, h]

/-- A transport call that is never answered: the engine waits, and no event is appended. -/
theorem transact_silent {call : TxCall} {s : State} (h : s.drawn call = none) :
    transact call s = (s.popAnswer.hang call, none) := by
  simp [transact, h]

theorem txWrite_answered {w : Word} {s : State} {r : Reply} (h : s.drawn (.write w) = some r) :
    txWrite w s = (s.popAnswer.logEvent (.write w (ackOf r)), some (ackOf r)) := by
  simp [txWrite, transact_answered h, eventOf]

theorem txWrite_silent {w : Word} {s : State} (h : s.drawn (.write w) = none) :
    txWrite w s = (s.popAnswer.hang (.write w), none) := by
  simp [txWrite, transact_silent h]

theorem txWriteRead_answered {w : Word} {s : State} {r : Reply} (h : s.drawn (.writeRead w) = some r) :
    txWriteRead w s = (s.popAnswer.logEvent (.writeRead w r), some r) := by
  simp [txWriteRead, transact_answered h, eventOf]

theorem txWriteRead_silent {w : Word} {s : State} (h : s.drawn (.writeRead w) = none) :
    txWriteRead w s = (s.popAnswer.hang (.writeRead w), none) := by
  simp [txWriteRead, transact_silent h]

/-- Everything one frame can do: it is answered, or the engine waits. -/
theorem txWrite_cases (w : Word) (s : State) :
    (∃ a, txWrite w s = (s.popAnswer.logEvent (.write w a), some a)) ∨
    txWrite w s = (s.popAnswer.hang (.write w), none) := by
  cases h : s.drawn (.write w) with
  | none => exact .inr (txWrite_silent h)
  | some r => exact .inl ⟨ackOf r, txWrite_answered h⟩

theorem txWriteRead_cases (w : Word) (s : State) :
    (∃ r, txWriteRead w s = (s.popAnswer.logEvent (.writeRead w r), some r)) ∨
    txWriteRead w s = (s.popAnswer.hang (.writeRead w), none) := by
  cases h : s.drawn (.writeRead w) with
  | none => exact .inr (txWriteRead_silent h)
  | some r => exact .inl ⟨r, txWriteRead_answered h⟩

/-- Everything a bind can do (20_memory.md R36). -/
theorem txBind_cases (cfg : BindCfg) (s : State) :
    txBind cfg s = ((s.popAnswer.logEvent (.bind cfg .ok)).setBound true, some .ok) ∨
    txBind cfg s = (s.popAnswer.logEvent (.bind cfg .err), some .err) ∨
    txBind cfg s = (s.popAnswer.hang (.bind cfg), none) := by
  cases h : s.drawn (.bind cfg) with
  | none => simp [txBind, transact_silent h, State.bindBy]
  | some r => cases r <;> simp [txBind, transact_answered h, State.bindBy, eventOf, ackOf]

/-- The outcome of RESET_TXN by the frame's answer (43_transaction_sequencer.md R93). -/
def resetOutcome : Ack → OutcomeCode
  | .ok => .success
  | .err => .transportError

/-- Everything RESET_TXN can do. -/
theorem resetTxn_cases (s : State) :
    (∃ a, resetTxn s = (s.popAnswer.logEvent (.write resetWord a), some (resetOutcome a))) ∨
    resetTxn s = (s.popAnswer.hang (.write resetWord), none) := by
  rcases txWrite_cases resetWord s with ⟨a, h⟩ | h
  · refine .inl ⟨a, ?_⟩
    cases a <;> simp [resetTxn, h, resetOutcome]
  · simp [resetTxn, h]

/-- Everything APPLY_TXN can do with a word (43_transaction_sequencer.md R94). -/
theorem verifyTxn_cases (w : Word) (s : State) :
    verifyTxn w s = (s.popAnswer.hang (.write w), none) ∨
    verifyTxn w s = (s.popAnswer.logEvent (.write w .err), some .transportError) ∨
    verifyTxn w s = ((s.popAnswer.logEvent (.write w .ok)).popAnswer.hang (.writeRead w), none) ∨
    verifyTxn w s =
      ((s.popAnswer.logEvent (.write w .ok)).popAnswer.logEvent (.writeRead w .err), some .transportError) ∨
    ∃ r, verifyTxn w s =
      ((s.popAnswer.logEvent (.write w .ok)).popAnswer.logEvent (.writeRead w (.ok r)), some (classify w r)) := by
  rcases txWrite_cases w s with ⟨_ | _, h⟩ | h
  · rcases txWriteRead_cases w (s.popAnswer.logEvent (.write w .ok)) with ⟨r, g⟩ | g
    · cases r with
      | ok r => exact .inr (.inr (.inr (.inr ⟨r, by simp [verifyTxn, h, g]⟩)))
      | err => simp [verifyTxn, h, g]
    · simp [verifyTxn, h, g]
  · simp [verifyTxn, h]
  · simp [verifyTxn, h]

/-! ### What each answer makes of a transaction

`h` is the answer to the first call, `g` the answer to the second, drawn in the state the first call leaves. -/

theorem resetTxn_silent {s : State} (h : s.drawn (.write resetWord) = none) :
    resetTxn s = (s.popAnswer.hang (.write resetWord), none) := by
  simp only [resetTxn, txWrite_silent h]

theorem resetTxn_answered {s : State} {r : Reply} (h : s.drawn (.write resetWord) = some r) :
    resetTxn s = (s.popAnswer.logEvent (.write resetWord (ackOf r)), some (resetOutcome (ackOf r))) := by
  cases r <;> simp only [resetTxn, txWrite_answered h, ackOf, resetOutcome]

section

variable {w : Word} {s : State}

theorem verifyTxn_firstSilent (h : s.drawn (.write w) = none) :
    verifyTxn w s = (s.popAnswer.hang (.write w), none) := by
  simp only [verifyTxn, txWrite_silent h]

theorem verifyTxn_firstErr (h : s.drawn (.write w) = some .err) :
    verifyTxn w s = (s.popAnswer.logEvent (.write w .err), some .transportError) := by
  simp only [verifyTxn, txWrite_answered h, ackOf]

theorem verifyTxn_secondSilent {x : Word} (h : s.drawn (.write w) = some (.ok x))
    (g : (s.popAnswer.logEvent (.write w .ok)).drawn (.writeRead w) = none) :
    verifyTxn w s = ((s.popAnswer.logEvent (.write w .ok)).popAnswer.hang (.writeRead w), none) := by
  simp only [verifyTxn, txWrite_answered h, ackOf, txWriteRead_silent g]

theorem verifyTxn_secondErr {x : Word} (h : s.drawn (.write w) = some (.ok x))
    (g : (s.popAnswer.logEvent (.write w .ok)).drawn (.writeRead w) = some .err) :
    verifyTxn w s =
      ((s.popAnswer.logEvent (.write w .ok)).popAnswer.logEvent (.writeRead w .err), some .transportError) := by
  simp only [verifyTxn, txWrite_answered h, ackOf, txWriteRead_answered g]

theorem verifyTxn_replied {x r : Word} (h : s.drawn (.write w) = some (.ok x))
    (g : (s.popAnswer.logEvent (.write w .ok)).drawn (.writeRead w) = some (.ok r)) :
    verifyTxn w s =
      ((s.popAnswer.logEvent (.write w .ok)).popAnswer.logEvent (.writeRead w (.ok r)), some (classify w r)) := by
  simp only [verifyTxn, txWrite_answered h, ackOf, txWriteRead_answered g]

end

section

variable {cfg : BindCfg} {s : State}

theorem runInit_bindSilent (h : s.drawn (.bind cfg) = none) : runInit cfg s = s.popAnswer.hang (.bind cfg) := by
  simp only [runInit, txBind, transact_silent h, State.bindBy, Option.map]

theorem runInit_bindErr (h : s.drawn (.bind cfg) = some .err) :
    runInit cfg s = (s.popAnswer.logEvent (.bind cfg .err)).respond (.outcome .transportError) := by
  simp only [runInit, txBind, transact_answered h, State.bindBy, Option.map, ackOf, eventOf]

/-- A bind answered Ok: the session is bound, both registers are cleared, and the power-on reset follows. -/
theorem runInit_bound {x : Word} (h : s.drawn (.bind cfg) = some (.ok x)) :
    runInit cfg s =
      finishInit (resetTxn (((s.popAnswer.logEvent (.bind cfg .ok)).setBound true).stage clearedRegisters)) := by
  simp only [runInit, txBind, transact_answered h, State.bindBy, Option.map, ackOf, eventOf]

end

/-- Where an instruction's own body runs: no operation waits and no fault is recorded. -/
theorem unlessStopped_body {s : State} {b : Host.Outcome State Fault Refusal}
    (hw : s.waiting = none) (hf : s.fault = none) : unlessStopped s b = b := by
  simp [unlessStopped, hw, hf]

/-- Everything the first checks can answer with a next state. -/
theorem unlessStopped_next {s t : State} {b : Host.Outcome State Fault Refusal} (h : unlessStopped s b = .next t) :
    s.waiting = none ∧ ((s.fault ≠ none ∧ t = s) ∨ (s.fault = none ∧ b = .next t)) := by
  unfold unlessStopped at h
  split at h
  · cases h
  · split at h
    · cases h; simp_all
    · simp_all

/-- The guard passes an admitted operation of an engine that is idle. -/
theorem guardOp_body {op : HostOp} {s : State} {b : Host.Outcome State Fault Refusal}
    (hw : s.waiting = none) (hf : s.fault = none) (ha : admittedIn op s.hs = true) : guardOp op s b = b := by
  simp [guardOp, unlessStopped_body hw hf, ha]

/-- Everything the guard can answer with a next state. -/
theorem guardOp_next {op : HostOp} {s t : State} {b : Host.Outcome State Fault Refusal} (h : guardOp op s b = .next t) :
    s.waiting = none ∧
    ((s.fault ≠ none ∧ t = s) ∨
     (s.fault = none ∧ admittedIn op s.hs = false ∧ t = s.raise (.notReady op s.hs)) ∨
     (s.fault = none ∧ admittedIn op s.hs = true ∧ b = .next t)) := by
  obtain ⟨hw, hs | ⟨hf, hb⟩⟩ := unlessStopped_next h
  · exact ⟨hw, .inl hs⟩
  · split at hb
    · exact ⟨hw, .inr (.inr ⟨hf, ‹_›, hb⟩)⟩
    · cases hb; exact ⟨hw, .inr (.inl ⟨hf, Bool.eq_false_iff.mpr ‹_›, rfl⟩)⟩

section

variable {op : HostOp} {s t : State} {k : Staged → Host.Outcome State Fault Refusal}

/-- A READY handle's operation runs on its registers. -/
theorem onReady_ready {r : Staged} (hw : s.waiting = none) (hf : s.fault = none) (hr : s.handle = .ready r) :
    onReady op s k = k r := by
  simp [onReady, unlessStopped_body hw hf, hr]

/-- Outside READY the mark is raised (43_transaction_sequencer.md R103): the registers are not read. -/
theorem onReady_notReady (hw : s.waiting = none) (hf : s.fault = none) (hr : s.hs ≠ .ready) :
    onReady op s k = .next (s.raise (.notReady op s.hs)) := by
  cases h : s.handle <;> simp_all [onReady, unlessStopped_body, State.hs, Handle.state]

/-- Everything the guard of a READY operation can answer with a next state. -/
theorem onReady_next (h : onReady op s k = .next t) :
    s.waiting = none ∧
    ((s.fault ≠ none ∧ t = s) ∨
     (s.fault = none ∧ s.hs ≠ .ready ∧ t = s.raise (.notReady op s.hs)) ∨
     (s.fault = none ∧ ∃ r, s.handle = .ready r ∧ k r = .next t)) := by
  obtain ⟨hw, hs | ⟨hf, -⟩⟩ := unlessStopped_next h
  · exact ⟨hw, .inl hs⟩
  · refine ⟨hw, .inr ?_⟩
    by_cases hr : s.hs = .ready
    · obtain ⟨r, hr⟩ := State.hs_ready.mp hr
      exact .inr ⟨hf, r, hr, by rwa [onReady_ready hw hf hr] at h⟩
    · rw [onReady_notReady hw hf hr] at h
      cases h
      exact .inl ⟨hf, hr, rfl⟩

end

/-- Everything the guard of a wire form can answer with a next state. -/
theorem onSession_next {s t : State} {b : Host.Outcome State Fault Refusal} (h : onSession s b = .next t) :
    s.waiting = none ∧ ((s.fault ≠ none ∧ t = s) ∨ (s.fault = none ∧ s.bound = true ∧ b = .next t)) := by
  obtain ⟨hw, hs | ⟨hf, hb⟩⟩ := unlessStopped_next h
  · exact ⟨hw, .inl hs⟩
  · split at hb
    · exact ⟨hw, .inr ⟨hf, ‹_›, hb⟩⟩
    · cases hb

/-- Everything INITIALIZE can do from UNINIT (43_transaction_sequencer.md R95, R97). -/
theorem runInit_cases (cfg : BindCfg) (s : State) :
    runInit cfg s = s.popAnswer.hang (.bind cfg) ∨
    runInit cfg s = (s.popAnswer.logEvent (.bind cfg .err)).respond (.outcome .transportError) ∨
    (let t := ((s.popAnswer.logEvent (.bind cfg .ok)).setBound true).stage clearedRegisters
     runInit cfg s = t.popAnswer.hang (.write resetWord) ∨
     runInit cfg s = ((t.popAnswer.logEvent (.write resetWord .ok)).openHandle clearedRegisters).respond (.outcome .success) ∨
     runInit cfg s =
       (txRelease (t.popAnswer.logEvent (.write resetWord .err))).respond (.outcome .transportError)) := by
  rcases txBind_cases cfg s with h | h | h
  · refine .inr (.inr ?_)
    rcases resetTxn_cases (((s.popAnswer.logEvent (.bind cfg .ok)).setBound true).stage clearedRegisters) with
      ⟨_ | _, g⟩ | g
    · exact .inr (.inl (by simp [runInit, h, g, finishInit, resetOutcome]))
    · exact .inr (.inr (by simp [runInit, h, g, finishInit, resetOutcome]))
    · exact .inl (by simp [runInit, h, g, finishInit])
  · exact .inr (.inl (by simp [runInit, h]))
  · exact .inl (by simp [runInit, h])

/-- The two things a step does: with nothing issued the engine is idle, else the decoded instruction runs. -/
theorem step_next {s t : State} (h : step s = .next t) :
    s.waiting = none ∧
    ((s.nextIssue = none ∧ t = s) ∨
     ∃ e u i, s.nextIssue = some (e, u) ∧ decode e = .ok i ∧ exec i u = .next t) := by
  unfold step at h
  split at h
  · cases h
  · rename_i hw
    refine ⟨hw, ?_⟩
    split at h
    · cases h; exact .inl ⟨‹_›, rfl⟩
    · rename_i e u hn
      split at h
      · exact .inr ⟨e, u, _, hn, ‹_›, h⟩
      · cases h

/-- What the sequencer takes is a placed command word, or the oldest host request. -/
theorem nextIssue_cases {s u : State} {e : Encoded} (h : s.nextIssue = some (e, u)) :
    (∃ w, s.wireWord = some w ∧ e = .word w ∧ u = { s with wireWord := none }) ∨
    (∃ r rest, s.wireWord = none ∧ s.requests = r :: rest ∧ e = .request r ∧ u = { s with requests := rest }) := by
  unfold State.nextIssue at h
  split at h
  · cases h; exact .inl ⟨_, ‹_›, rfl, rfl⟩
  · split at h
    · cases h
    · cases h; exact .inr ⟨_, _, ‹_›, ‹_›, rfl, rfl⟩

end Sys2Proof.Machine
end

