-- ==== Sys2Proof/Laws/Exec.lean ====
section
/-! SUPPORT. What each instruction can do, path by path (43_transaction_sequencer.md R102, R108), and the one inversion
lemma of `exec`, from which the invariants follow by cases. -/

namespace Sys2Proof.Machine

/-- What the two frames of a CMD_CONFIG word leave, apart from a response. -/
inductive Sent (w : Word) (s : State) : State × Option OutcomeCode → Prop
  | firstSilent : Sent w s (s.popAnswer.hang (.write w), none)
  | firstErr : Sent w s (s.popAnswer.logEvent (.write w .err), some .transportError)
  | secondSilent : Sent w s ((s.popAnswer.logEvent (.write w .ok)).popAnswer.hang (.writeRead w), none)
  | secondErr :
      Sent w s ((s.popAnswer.logEvent (.write w .ok)).popAnswer.logEvent (.writeRead w .err), some .transportError)
  | replied (r : Word) :
      Sent w s ((s.popAnswer.logEvent (.write w .ok)).popAnswer.logEvent (.writeRead w (.ok r)), some (classify w r))

/-- A path of an admitted instruction from a state with no fault recorded and no operation running. -/
inductive Effect (s : State) : Instr → State → Prop
  | invalid (axis d : Int) (hr : s.hs = .ready) (hp : parseAxis axis = none ∨ parseDirection d = none) :
      Effect s (.set axis d) (s.respond (.outcome .invalidArgument))
  | staged (axis d : Int) (a : Axis) (dir : Direction) (r : Staged) (hr : s.handle = .ready r)
      (ha : parseAxis axis = some a) (hd : parseDirection d = some dir) :
      Effect s (.set axis d) ((s.stage (setOutput a dir r)).respond (.outcome .success))
  | applied (r : Staged) (p : State × Option OutcomeCode) (hr : s.handle = .ready r)
      (hp : Sent (configWord r.outEn r.outConf) s p) : Effect s .apply (respondWith p)
  | bindSilent (bus : BusId) (cs : CsId) (g : Int) (hu : s.hs = .uninit) :
      Effect s (.init bus cs g) (s.popAnswer.hang (.bind (bindCfg bus cs g)))
  | bindErr (bus : BusId) (cs : CsId) (g : Int) (hu : s.hs = .uninit) :
      Effect s (.init bus cs g)
        ((s.popAnswer.logEvent (.bind (bindCfg bus cs g) .err)).respond (.outcome .transportError))
  | resetSilent (bus : BusId) (cs : CsId) (g : Int) (hu : s.hs = .uninit) :
      Effect s (.init bus cs g)
        ((((s.popAnswer.logEvent (.bind (bindCfg bus cs g) .ok)).setBound true).stage clearedRegisters).popAnswer.hang
          (.write resetWord))
  | resetOk (bus : BusId) (cs : CsId) (g : Int) (hu : s.hs = .uninit) :
      Effect s (.init bus cs g)
        ((((((s.popAnswer.logEvent (.bind (bindCfg bus cs g) .ok)).setBound true).stage clearedRegisters).popAnswer.logEvent
          (.write resetWord .ok)).openHandle clearedRegisters).respond (.outcome .success))
  | resetErr (bus : BusId) (cs : CsId) (g : Int) (hu : s.hs = .uninit) :
      Effect s (.init bus cs g)
        ((txRelease ((((s.popAnswer.logEvent (.bind (bindCfg bus cs g) .ok)).setBound true).stage clearedRegisters).popAnswer.logEvent (.write resetWord .err))).respond (.outcome .transportError))
  | closeUninit (hu : s.hs = .uninit) : Effect s .close (s.closeHandle.respond .done)
  | closeSilent (hr : s.hs = .ready) : Effect s .close ((s.stage clearedRegisters).popAnswer.hang (.write resetWord))
  | closeReady (a : Ack) (hr : s.hs = .ready) :
      Effect s .close
        (((txRelease ((s.stage clearedRegisters).popAnswer.logEvent (.write resetWord a))).closeHandle).respond .done)
  | strobeSilent (hb : s.bound = true) : Effect s .cmdReset (s.popAnswer.hang (.write resetWord))
  | strobe (a : Ack) (hb : s.bound = true) : Effect s .cmdReset (s.popAnswer.logEvent (.write resetWord a))
  | configured (hben hbcnf : HbField) (p : State × Option OutcomeCode) (hb : s.bound = true)
      (hp : Sent (configWord (hben.setWidth 8) (hbcnf.setWidth 8)) s p) : Effect s (.cmdConfig hben hbcnf) p.1

/-- SET_OUTPUT and APPLY are admitted in READY alone (43_transaction_sequencer.md R102). -/
theorem admittedIn_notReady {op : HostOp} {hs : HandleState} (ho : op = .setOutput ∨ op = .apply) (hn : hs ≠ .ready) :
    admittedIn op hs = false := by
  rcases ho with rfl | rfl <;> cases hs <;> simp_all [admittedIn]

theorem verifyTxn_sent (w : Word) (s : State) : Sent w s (verifyTxn w s) := by
  rcases verifyTxn_cases w s with h | h | h | h | ⟨r, h⟩ <;> rw [h] <;> constructor

/-- Everything `exec` can answer with a next state: in a faulted state nothing; for a host operation that the
handle state does not allow, the fault mark; else one of the paths. -/
theorem exec_next {i : Instr} {s t : State} (h : exec i s = .next t) :
    s.waiting = none ∧
    ((s.fault ≠ none ∧ t = s) ∨
     (s.fault = none ∧ ∃ op, hostOpOf i = some op ∧ admittedIn op s.hs = false ∧ t = s.raise (.notReady op s.hs)) ∨
     (s.fault = none ∧ (∀ op, hostOpOf i = some op → admittedIn op s.hs = true) ∧ Effect s i t)) := by
  cases i with
  | init bus cs g =>
    obtain ⟨hw, ⟨hf, ht⟩ | ⟨hf, ha, ht⟩ | ⟨hf, ha, hb⟩⟩ := guardOp_next h
    · exact ⟨hw, .inl ⟨hf, ht⟩⟩
    · exact ⟨hw, .inr (.inl ⟨hf, _, rfl, ha, ht⟩)⟩
    · refine ⟨hw, .inr (.inr ⟨hf, fun op ho => by cases ho; exact ha, ?_⟩)⟩
      have hu : s.hs = .uninit := by cases hs : s.hs <;> simp [admittedIn, hs] at ha ⊢
      cases hb
      rcases runInit_cases (bindCfg bus cs g) s with e | e | e | e | e <;> rw [e]
      · exact .bindSilent _ _ _ hu
      · exact .bindErr _ _ _ hu
      · exact .resetSilent _ _ _ hu
      · exact .resetOk _ _ _ hu
      · exact .resetErr _ _ _ hu
  | set axis d =>
    obtain ⟨hw, ⟨hf, ht⟩ | ⟨hf, hn, ht⟩ | ⟨hf, r, hr, hk⟩⟩ := onReady_next h
    · exact ⟨hw, .inl ⟨hf, ht⟩⟩
    · exact ⟨hw, .inr (.inl ⟨hf, _, rfl, admittedIn_notReady (.inl rfl) hn, ht⟩)⟩
    · have hs := State.ready_hs hr
      refine ⟨hw, .inr (.inr ⟨hf, fun op ho => by cases ho; simp [admittedIn, hs], ?_⟩)⟩
      cases hx : parseAxis axis with
      | none => rw [hx] at hk; cases hk; exact .invalid _ _ hs (.inl hx)
      | some a =>
        cases hy : parseDirection d with
        | none => rw [hx, hy] at hk; cases hk; exact .invalid _ _ hs (.inr hy)
        | some dir => rw [hx, hy] at hk; cases hk; exact .staged _ _ a dir r hr hx hy
  | apply =>
    obtain ⟨hw, ⟨hf, ht⟩ | ⟨hf, hn, ht⟩ | ⟨hf, r, hr, hk⟩⟩ := onReady_next h
    · exact ⟨hw, .inl ⟨hf, ht⟩⟩
    · exact ⟨hw, .inr (.inl ⟨hf, _, rfl, admittedIn_notReady (.inr rfl) hn, ht⟩)⟩
    · refine ⟨hw, .inr (.inr ⟨hf, fun op ho => by cases ho; simp [admittedIn, State.ready_hs hr], ?_⟩)⟩
      cases hk
      exact .applied r _ hr (verifyTxn_sent _ s)
  | close =>
    obtain ⟨hw, ⟨hf, ht⟩ | ⟨hf, ha, ht⟩ | ⟨hf, ha, hb⟩⟩ := guardOp_next h
    · exact ⟨hw, .inl ⟨hf, ht⟩⟩
    · exact ⟨hw, .inr (.inl ⟨hf, _, rfl, ha, ht⟩)⟩
    · refine ⟨hw, .inr (.inr ⟨hf, fun op ho => by cases ho; exact ha, ?_⟩)⟩
      split at hb
      · cases hb; exact .closeUninit ‹_›
      · rename_i hn
        have hr : s.hs = .ready := by cases hs : s.hs <;> simp [admittedIn, hs] at ha hn ⊢
        cases hb
        rcases resetTxn_cases (s.stage clearedRegisters) with ⟨a, e⟩ | e <;> rw [e]
        · exact .closeReady a hr
        · exact .closeSilent hr
  | cmdReset =>
    obtain ⟨hw, ⟨hf, ht⟩ | ⟨hf, hb, ht⟩⟩ := onSession_next h
    · exact ⟨hw, .inl ⟨hf, ht⟩⟩
    · refine ⟨hw, .inr (.inr ⟨hf, fun op ho => (by cases ho), ?_⟩)⟩
      cases ht
      rcases resetTxn_cases s with ⟨a, e⟩ | e <;> rw [e]
      · exact .strobe a hb
      · exact .strobeSilent hb
  | cmdConfig hben hbcnf =>
    obtain ⟨hw, ⟨hf, ht⟩ | ⟨hf, hb, ht⟩⟩ := onSession_next h
    · exact ⟨hw, .inl ⟨hf, ht⟩⟩
    · refine ⟨hw, .inr (.inr ⟨hf, fun op ho => (by cases ho), ?_⟩)⟩
      cases ht
      exact .configured _ _ _ hb (verifyTxn_sent _ s)

end Sys2Proof.Machine
end

