-- ==== Sys2Proof/Laws/PerInstr.lean ====
section
/-! SUPPORT. The family TableRow: every encoding of an instruction meets its own row of the opcode table, by the row's
mask and match (30_encoding.md R55, R59). -/

namespace Sys2Proof.Laws.TableRow

/-- The encoding of an instruction meets its row. -/
def Statement (i : Instr) : Prop :=
  (encode i).tableBits &&& i.row.mask = i.row.value ∧ (encode i).tableBits < 2 ^ i.row.nbits

theorem init (bus : BusId) (cs : CsId) (gpioCs : Int) : Statement (.init bus cs gpioCs) :=
  ⟨by simp [encode, Encoded.tableBits, Instr.row, HostOp.code], by simp [encode, Encoded.tableBits, Instr.row, HostOp.code]⟩

theorem set (axis direction : Int) : Statement (.set axis direction) :=
  ⟨by simp [encode, Encoded.tableBits, Instr.row, HostOp.code], by simp [encode, Encoded.tableBits, Instr.row, HostOp.code]⟩

theorem apply : Statement .apply := by
  unfold Statement; decide

theorem close : Statement .close := by
  unfold Statement; decide

theorem cmdReset : Statement .cmdReset := by
  unfold Statement; decide

theorem cmdConfig (hben hbcnf : HbField) : Statement (.cmdConfig hben hbcnf) := by
  refine ⟨?_, BitVec.isLt _⟩
  have h : (packCommand ⟨0, 0, 0, hben, hbcnf, 0⟩) &&& 0xE001#16 = 0#16 := by
    unfold packCommand packWith placeField cmdLayout
    ext i hi
    interval_cases i <;> simp
  simpa [encode, Encoded.tableBits, Instr.row] using congrArg BitVec.toNat h

end Sys2Proof.Laws.TableRow
end

