-- ==== Sys2Proof/Tests/Slice0.lean ====
section
/-! SUPPORT. Small tests. Expected values are the spec's own (95_test_vectors.md, whose vector ids are named) or written
out from its tables; the second half shows, for each statement that has hypotheses, a state and operands that meet them,
clause by clause. Nothing here is a claim. -/

namespace Sys2Proof.Tests

open Sys2Proof.Machine

/-! ## Helpers: small states and scripts -/

/-- A transport that answers Ok, the reply being `w` where one is read. -/
def ok (w : Word := 0) : Answer := .reply (.ok w)

/-- A transport that answers Err. -/
def err : Answer := .reply .err

/-- The state after reset with a transport script. -/
def fresh (answers : List Answer := []) : State := { State.reset with answers := answers }

/-- A READY handle with given staged registers and a transport script. Its trace is left empty. -/
def ready (en conf : Byte) (answers : List Answer := []) : State :=
  { State.reset with handle := .ready ⟨en, conf⟩, bound := true, answers := answers }

/-- A CLOSED handle. -/
def closed : State := { State.reset with handle := .closed (some ⟨0, 0⟩) }

/-- The fault mark of SO-29. -/
def mark : FaultMark := .notReady .apply .uninit

/-- A handle with that mark. -/
def faulted (s : State) : State := { s with fault := some mark }

/-- A handle as INITIALIZE leaves it, its trace included (P1, line 1). -/
def opened (en conf : Byte) (answers : List Answer := []) : State :=
  { ready en conf answers with trace := [.bind (bindCfg .first .first (-1)) .ok, .write 0x8000 .ok] }

/-! ## Encodings -/

/-- R63, R64: the raw forms that are no encodings are refused by the check and by the decoder. -/
theorem test_ill_formed_requests_are_refused :
    (HostRequest.mk 0 (.output 0 0)).wellFormed = false ∧ (HostRequest.mk 1 (.session .first .first 0)).wellFormed = false ∧
    (HostRequest.mk 2 (.output 0 0)).wellFormed = false ∧ (HostRequest.mk 3 (.session .first .first 0)).wellFormed = false ∧
    decode (.request ⟨0, .none⟩) = .error (.wrongArguments .init) := by decide

/-- R55: one word for each bit that neither form may set, and CMD_RESET with an enable bit. -/
theorem test_ill_formed_words_are_refused :
    commandWordLegal 0x0001#16 = false ∧ commandWordLegal 0x2000#16 = false ∧ commandWordLegal 0x4000#16 = false ∧
    commandWordLegal 0x8002#16 = false ∧ commandWordLegal 0x8080#16 = false ∧
    decode (.word 0x8080#16) = .error (.notEmitted 0x8080#16) := by decide

/-- CMD_RESET, its bits 15 to 0 written from the table of R53. -/
theorem test_cmd_reset_word_decodes : decodeWord 0b1000000000000000#16 = .ok .cmdReset := by decide

/-- CMD_CONFIG `000E EEEE ECCC CCC0` with `hben` 111111 and `hbcnf` 010101 (CF-3). -/
theorem test_cmd_config_word_decodes :
    decodeWord 0b0001111110101010#16 = .ok (.cmdConfig 0b111111#6 0b010101#6) := by decide

/-- The four selectors of R59 (D6). -/
theorem test_requests_decode :
    decodeRequest ⟨0b00#2, .session .first .first (-1)⟩ = .ok (.init .first .first (-1)) ∧ decodeRequest ⟨0b01#2, .output 2 1⟩ = .ok (.set 2 1) ∧
    decodeRequest ⟨0b10#2, .none⟩ = .ok .apply ∧ decodeRequest ⟨0b11#2, .none⟩ = .ok .close := by decide

/-- The opcode table's own bits. -/
theorem test_table_words_decode :
    decodeTableWord 8 0 = some (.init .first .first 0) ∧ decodeTableWord 8 1 = some (.set 0 0) ∧
    decodeTableWord 8 2 = some .apply ∧ decodeTableWord 8 3 = some .close ∧
    decodeTableWord 16 0x8000 = some .cmdReset ∧ decodeTableWord 16 0x0182 = some (.cmdConfig 3 1) ∧
    decodeTableWord 16 0xFFFF = none := by decide

/-- EN-3, EN-11, EN-13, EN-14 and the bytes of EN-8. -/
theorem test_encode_vectors :
    encodeCommand 0x03 0x01 0 = 0x0182#16 ∧ encodeCommand 0xC3 0x41 0 = 0x0182#16 ∧
    encodeCommand 0x03 0x07 0 = 0x018E#16 ∧ encodeCommand 0xFF 0xFF 1 = 0x9FFE#16 ∧
    serialize 0x1FD4#16 = (0x1F#8, 0xD4#8) := by decide

/-- The bit stream of EN-3, first bit first. -/
theorem test_bus_bits :
    busBits 0x0182#16 =
      [false, false, false, false, false, false, false, true, true, false, false, false, false, false, true, false] := by
  decide

/-- SD-5, SD-6 and SD-9. -/
theorem test_status_vectors :
    statusDecode 0x9E20#16 = ⟨1, 0, 0, 0b111100, 0b010000, 0⟩ ∧ statusDecode 0xDFA5#16 = ⟨1, 1, 0, 0b111111, 0b010010, 1⟩ ∧
    statusDecode 0x0380#16 = ⟨0, 0, 0, 0b000111, 0b000000, 0⟩ := by decide

/-- CL-2, CL-5, CL-7, CL-9, CL-11, CL-12 and CL-21. -/
theorem test_classify_vectors :
    classify 0x0182 0x0002 = .success ∧ classify 0x0182 0xE185 = .configurationMismatch ∧
    classify 0x0182 0xE183 = .thermalWarning ∧ classify 0x0182 0xE182 = .powerSupplyFailure ∧
    classify 0x0182 0xA182 = .overcurrentShutoff ∧ classify 0x0182 0x2182 = .underLoad ∧
    classify 0x1E20 0x9E20 = .overcurrentShutoff := by decide

/-- R54: what EN-3 asks of half-bridges 0 to 2, and nothing under a word with `hbsel`, `uldsc` or `ovlo` set. -/
theorem test_half_bridges :
    halfBridgeDrive 0x0182 0 = some .highSideOn ∧ halfBridgeDrive 0x0182 1 = some .lowSideOn ∧
    halfBridgeDrive 0x0182 2 = none ∧ halfBridgeDrive 0x4182 0 = none ∧ halfBridgeDrive 0x2182 0 = none ∧
    halfBridgeDrive 0x0183 0 = none := by decide

/-- The codes of D6 and D7. -/
theorem test_codes :
    [HandleState.uninit, .ready, .closed].map handleStateCode = [0, 1, 2] ∧
    [OutcomeCode.success, .transportError, .invalidArgument, .configurationMismatch, .thermalWarning, .powerSupplyFailure,
      .overcurrentShutoff, .underLoad].map outcomeNumber = [0, 1, 2, 3, 4, 5, 6, 7] := by decide

/-- Lines of P1 and P2 (R65). -/
theorem test_program_lines_assemble :
    assembleLine ['s', 'e', 't', ' ', '1', ',', ' ', '-', '1'] = .ok (some ⟨0b01#2, .output 1 (-1)⟩) ∧
    assembleLine ['i', 'n', 'i', 't', ' ', '1', ',', '2', ',', '-', '1', ' ', ';', 'a'] =
      .ok (some ⟨0b00#2, .session (Config.busIdOf 1) (Config.csIdOf 2) (-1)⟩) ∧
    assembleLine ['c', 'l', 'o', 's', 'e'] = .ok (some ⟨0b11#2, .none⟩) ∧ assembleLine [' ', ';', 'x'] = .ok none ∧
    assembleLine ['s', 'e', 't', ' ', '1'] = .error (.wrongOperandCount .setOutput 1) :=
  ⟨by decide, rfl, by decide, by decide, by decide⟩

/-- The echo device's example (95_test_vectors.md section 4): 0x0182 after a reset frame, with `ocs` raised. -/
theorem test_echo_device :
    (echoFrame noFaults 0x0182 (echoFrame noFaults 0x8000 echoInitial).2).1 = 0x0000#16 ∧
    (echoFrame ⟨false, false, false, true⟩ 0x0182 echoInitial).2.prev = 0x8182#16 := by decide

/-! ## One step of each instruction -/

/-- TX-3: the GPIO chip-select, the two events and the cleared registers. -/
theorem test_init_succeeds (bus : BusId) (cs : CsId) :
    exec (.init bus cs 5) (fresh [ok, ok]) =
      .next { ready 0x00 0x00 with
        trace := [.bind ⟨bus, .gpio 5, 1, 8, Config.clockRate, .msbFirst⟩ .ok, .write 0x8000 .ok],
        responses := [.outcome .success] } := rfl

/-- TX-2: the reset frame fails and the session is released. -/
theorem test_init_releases (bus : BusId) (cs : CsId) :
    exec (.init bus cs (-1)) (fresh [ok, err]) =
      .next { fresh with
        handle := .uninit (some ⟨0x00, 0x00⟩),
        trace := [.bind ⟨bus, .native cs, 1, 8, Config.clockRate, .msbFirst⟩ .ok, .write 0x8000 .err, .release],
        responses := [.outcome .transportError] } := rfl

/-- SO-11: pairs 1 and 2 stay. -/
theorem test_set_replaces_one_pair :
    exec (.set 0 (-1)) (ready 0x3F 0x19) = .next { ready 0x3F 0x1A with responses := [.outcome .success] } := rfl

/-- SO-23: 2^64 does not wrap to axis 0. -/
theorem test_set_does_not_wrap :
    exec (.set 18446744073709551616 1) (ready 0 0) = .next { ready 0 0 with responses := [.outcome .invalidArgument] } := rfl

/-- TX-18: the second reply carries `ocs`, and the handle stays READY. -/
theorem test_apply_reports_overcurrent :
    exec .apply (ready 0x03 0x01 [ok, ok 0x8182]) =
      .next { ready 0x03 0x01 with
        trace := [.write 0x0182 .ok, .writeRead 0x0182 (.ok 0x8182)], responses := [.outcome .overcurrentShutoff] } := rfl

/-- TX-5: no second frame after a failed first one. -/
theorem test_apply_aborts :
    exec .apply (ready 0x03 0x01 [err, ok 0x0182]) =
      .next { ready 0x03 0x01 [ok 0x0182] with
        trace := [.write 0x0182 .err], responses := [.outcome .transportError] } := rfl

/-- TX-10: a failed shutdown frame still closes. -/
theorem test_close_after_failed_frame :
    exec .close (ready 0xFF 0xAA [err]) =
      .next { closed with trace := [.write 0x8000 .err, .release], responses := [.done] } := rfl

/-- TX-11: a handle never bound closes with no event and no register written. -/
theorem test_close_uninit :
    exec .close fresh = .next { fresh with handle := .closed none, responses := [.done] } := rfl

/-- R80, R93: one frame 0x8000 and nothing else. -/
theorem test_cmd_reset_sends :
    exec .cmdReset (ready 0x03 0x01 [ok]) = .next { ready 0x03 0x01 with trace := [.write 0x8000 .ok] } := rfl

/-- R81, R94: the word twice; the staged registers are not read. -/
theorem test_cmd_config_sends :
    exec (.cmdConfig 0b111100 0b010000) (ready 0x03 0x01 [ok, ok 0x9E20]) =
      .next { ready 0x03 0x01 with trace := [.write 0x1E20 .ok, .writeRead 0x1E20 (.ok 0x9E20)] } := rfl

/-- A placed instruction is the one the next step runs, from reset. -/
theorem test_with_fetch_word :
    step (State.reset.withFetchWord 8 3) = exec .close { State.reset with requests := [] } ∧
    step (State.reset.withFetchWord 16 0x8000) = exec .cmdReset { State.reset with bound := true } := ⟨rfl, rfl⟩

/-! ## Witnesses -/

/-- CommandFieldsRoundTrip: every bit but 14, 13 and 0 set (EN-14), and none. -/
theorem test_witness_round_trip :
    (0x9FFE#16).getLsbD 14 = false ∧ (0x9FFE#16).getLsbD 13 = false ∧ (0x9FFE#16).getLsbD 0 = false ∧
    (0x0000#16).getLsbD 14 = false ∧ (0x0000#16).getLsbD 13 = false ∧ (0x0000#16).getLsbD 0 = false := by decide

/-- StagedBitsReachTheirPlaces and ApplyCannotSeeAxisThree: registers that differ in bits 7:6 alone. -/
theorem test_witness_axis_three_bits :
    (0xC3#8).extractLsb' 0 6 = (0x03#8).extractLsb' 0 6 ∧ (0x41#8).extractLsb' 0 6 = (0x01#8).extractLsb' 0 6 ∧
    (ready 0x03 0x01).idle ∧ (ready 0x03 0x01).hs = .ready := ⟨by decide, by decide, ⟨rfl, rfl⟩, rfl⟩

/-- EncodeInvertsDecode: one request and one word. -/
theorem test_witness_decodes :
    decode (.request ⟨1, .output 3 (-1)⟩) = .ok (.set 3 (-1)) ∧ decode (.word 0x1FFE#16) = .ok (.cmdConfig 63 63) := by decide

/-- NoEncodingMeetsAnotherRow: two words of one row. -/
theorem test_witness_rows :
    (Instr.cmdConfig 63 21).row.nbits = (Instr.cmdConfig 0 0).row.nbits ∧
    (encode (.cmdConfig 63 21)).tableBits &&& (Instr.cmdConfig 0 0).row.mask = (Instr.cmdConfig 0 0).row.value := by decide

/-- FramesAreTwoBytes: one byte too few, one too many. -/
theorem test_witness_frames : [0x80#8].length ≠ 2 ∧ [0x80#8, 0x00#8, 0x00#8].length ≠ 2 := by decide

/-- ClassifyIsTheTable: a status word on each row (CL-5, CL-7, CL-9, CL-11, CL-12 are test_classify_vectors), a matching one
with no fault. -/
theorem test_witness_table :
    (statusDecode 0x0182).hbcr = (0x0182#16).extractLsb' 1 6 ∧ (statusDecode 0x0182).tw = 0 ∧
    (statusDecode 0x0184).hbcr ≠ (0x0182#16).extractLsb' 1 6 := by decide

/-- ClassifyIgnoresHbst: all of `hbst` differs (CL-1, CL-16). -/
theorem test_witness_hbst :
    ∀ i : Fin 16, (i.val < 7 ∨ 12 < i.val) → (0x0000#16).getLsbD i.val = (0x1F80#16).getLsbD i.val := by decide

/-- SetOutputFollowsItsRule: SO-29, SO-26 and SO-27, the four sides of the range, and both ends of it. -/
theorem test_witness_set :
    (faulted (ready 3 1)).waiting = none ∧ (faulted (ready 3 1)).fault = some mark ∧
    (fresh.fault = none ∧ fresh.hs ≠ .ready ∧ closed.fault = none ∧ closed.hs ≠ .ready) ∧
    ((ready 3 1).waiting = none ∧ (ready 3 1).fault = none ∧ (ready 3 1).hs = .ready) ∧
    ((-1 : Int) < 0 ∧ (3 : Int) < 4 ∧ (-2 : Int) < -1 ∧ (1 : Int) < 2) ∧
    (ready 3 1).handle = .ready ⟨3, 1⟩ ∧
    ((0 : Int) = ((0 : Axis).val : Int) ∧ (3 : Int) = ((3 : Axis).val : Int) ∧ (-1 : Int) ≤ -1 ∧ (1 : Int) ≤ 1) := by decide

/-- SetOutputFollowsItsRule, its effects at the two ends: SO-2 and SO-7. -/
theorem test_witness_set_effect :
    exec (.set 0 (-1)) (ready 0 0) = .next { ready 0x03 0x02 with responses := [.outcome .success] } ∧
    exec (.set 3 1) (ready 0 0) = .next { ready 0xC0 0x40 with responses := [.outcome .success] } := ⟨rfl, rfl⟩

/-- SetOutputKeepsTheOtherPairs: SO-11 and SO-18, arguments in range and out of it. -/
theorem test_witness_other_pairs :
    (ready 0x3F 0x19).outEn = some 0x3F ∧ (ready 0x3F 0x19).outConf = some 0x19 ∧ ((1 : Axis).val : Int) ≠ 0 ∧
    exec (.set 0 (-1)) (ready 0x3F 0x19) = .next { ready 0x3F 0x1A with responses := [.outcome .success] } ∧
    exec (.set 4 1) (ready 0x3F 0x19) = .next { ready 0x3F 0x19 with responses := [.outcome .invalidArgument] } :=
  ⟨rfl, rfl, by decide, rfl, rfl⟩

/-- PairsAreTheWholeRegister: equal pairs, and two axes that differ. -/
theorem test_witness_pairs :
    (∀ a : Axis, getPair 0x1B#8 a = getPair 0x1B#8 a) ∧ (3 : Axis) ≠ 0 := by decide

/-- StagingMergesPerAxis: each of its chains of operations runs (SO-24, SO-25, SO-9). -/
theorem test_witness_merge :
    (ready 0 0).idle ∧ (ready 0 0).hs = .ready ∧ (0 : Axis) ≠ 1 ∧
    exec (.set ((0 : Axis).val : Int) 1) (ready 0 0) = .next { ready 3 1 with responses := [.outcome .success] } ∧
    exec (.set ((0 : Axis).val : Int) (-1)) { ready 3 1 with responses := [.outcome .success] } =
      .next { ready 3 2 with responses := [.outcome .success, .outcome .success] } ∧
    exec (.set ((0 : Axis).val : Int) (-1)) (ready 0 0) = .next { ready 3 2 with responses := [.outcome .success] } ∧
    exec (.set ((1 : Axis).val : Int) (-1)) { ready 3 1 with responses := [.outcome .success] } =
      .next { ready 0x0F 9 with responses := [.outcome .success, .outcome .success] } ∧
    exec (.set ((1 : Axis).val : Int) (-1)) (ready 0 0) = .next { ready 0x0C 8 with responses := [.outcome .success] } ∧
    exec (.set ((0 : Axis).val : Int) 1) { ready 0x0C 8 with responses := [.outcome .success] } =
      .next { ready 0x0F 9 with responses := [.outcome .success, .outcome .success] } :=
  ⟨⟨rfl, rfl⟩, rfl, by decide, rfl, rfl, rfl, rfl, rfl, rfl⟩

/-- StagingMergesPerAxis, last part: SET_OUTPUT and then an APPLY whose second frame fails. -/
theorem test_witness_set_then_apply :
    let t : State := { ready 3 1 [ok, err] with responses := [.outcome .success] }
    exec (.set 0 1) (ready 0 0 [ok, err]) = .next t ∧
    exec .apply t = .next { ready 3 1 with
      trace := [.write 0x0182 .ok, .writeRead 0x0182 .err],
      responses := [.outcome .success, .outcome .transportError] } := ⟨rfl, rfl⟩

/-- EnabledPairsStayEnabled: SO-12, and a step that changes another pair of a READY handle (SO-9). -/
theorem test_witness_enabled_pairs :
    exec (.set ((0 : Axis).val : Int) 0) (ready 0 0) = .next { ready 3 0 with responses := [.outcome .success] } ∧
    getPair 0x03#8 0 = 0b11#2 ∧
    step { ready 3 1 with requests := [⟨1, .output 1 (-1)⟩] } = .next { ready 0x0F 9 with responses := [.outcome .success] } :=
  ⟨rfl, by decide, rfl⟩

/-- DirectionDrivesItsHalfBridges: axis 3 has its pair only (SO-8). -/
theorem test_witness_axis_three_pair :
    exec (.set ((3 : Axis).val : Int) (-1)) (ready 0 0) = .next { ready 0xC0 0x80 with responses := [.outcome .success] } ∧
    getPair 0x80#8 3 = 0b10#2 := ⟨rfl, by decide⟩

/-- DirectionDrivesItsHalfBridges: axis 2, direction -1 (SO-6). -/
theorem test_witness_half_bridges :
    (ready 0 0).idle ∧ (ready 0 0).hs = .ready ∧
    exec (.set ((2 : Axis).val : Int) (-1)) (ready 0 0) = .next { ready 0x30 0x20 with responses := [.outcome .success] } ∧
    halfBridgeDrive (configWord 0x30 0x20) 4 = some .lowSideOn ∧
    halfBridgeDrive (configWord 0x30 0x20) 5 = some .highSideOn := ⟨⟨rfl, rfl⟩, rfl, rfl, by decide, by decide⟩

/-- AxisThreeNeverReachesTheWord: a READY handle whose axis 3 was staged already. -/
theorem test_witness_axis_three :
    (ready 0xFF 0xAA).idle ∧ (ready 0xFF 0xAA).handle = .ready ⟨0xFF, 0xAA⟩ := ⟨⟨rfl, rfl⟩, rfl⟩

/-- ApplyFollowsItsRule: each answer, silent, Err and Ok, at either frame. -/
theorem test_witness_apply :
    (faulted fresh).waiting = none ∧ (faulted fresh).fault = some mark ∧ fresh.fault = none ∧ fresh.hs ≠ .ready ∧
    ((ready 3 1).waiting = none ∧ (ready 3 1).fault = none ∧ (ready 3 1).handle = .ready ⟨3, 1⟩) ∧
    (ready 3 1 [.silent]).drawn (.write (encodeCommand 3 1 0)) = none ∧
    (ready 3 1 [err]).drawn (.write (encodeCommand 3 1 0)) = some .err ∧
    (ready 3 1 [ok 7, .silent]).drawn (.write (encodeCommand 3 1 0)) = some (.ok 7) ∧
    ({ ready 3 1 [.silent] with trace := [.write 0x0182 .ok] } : State).drawn (.writeRead 0x0182) = none ∧
    ({ ready 3 1 [err] with trace := [.write 0x0182 .ok] } : State).drawn (.writeRead 0x0182) = some .err ∧
    ({ ready 3 1 [ok 5] with trace := [.write 0x0182 .ok] } : State).drawn (.writeRead 0x0182) = some (.ok 5) := by decide

/-- RepeatedApplySendsTheSameWord: two APPLY operations that both end, four frames. -/
theorem test_witness_repeated_apply :
    let t : State := { ready 3 1 [ok, ok 0x0182] with
      trace := [.write 0x0182 .ok, .writeRead 0x0182 (.ok 0)], responses := [.outcome .configurationMismatch] }
    (ready 3 1).idle ∧ exec .apply (ready 3 1 [ok, ok 0, ok, ok 0x0182]) = .next t ∧ t.waiting = none ∧
    exec .apply t = .next { ready 3 1 with
      trace := [.write 0x0182 .ok, .writeRead 0x0182 (.ok 0), .write 0x0182 .ok, .writeRead 0x0182 (.ok 0x0182)],
      responses := [.outcome .configurationMismatch, .outcome .success] } := ⟨⟨rfl, rfl⟩, rfl, rfl, rfl⟩

/-- ApplySuccessIsVerified: an APPLY that responds Success (TX-7). -/
theorem test_witness_apply_success :
    (ready 3 1 [ok, ok 0x0182]).idle ∧
    exec .apply (ready 3 1 [ok, ok 0x0182]) = .next { ready 3 1 with
      trace := [.write 0x0182 .ok, .writeRead 0x0182 (.ok 0x0182)], responses := [] ++ [.outcome .success] } :=
  ⟨⟨rfl, rfl⟩, rfl⟩

/-- FaultOutcomeKeepsTheHandleReady: an APPLY that reports a fault (TX-18), and the three operations by name. -/
theorem test_witness_fault_outcome :
    (ready 3 1 [ok, ok 0x8182]).idle ∧
    exec .apply (ready 3 1 [ok, ok 0x8182]) = .next { ready 3 1 with
      trace := [.write 0x0182 .ok, .writeRead 0x0182 (.ok 0x8182)], responses := [.outcome .overcurrentShutoff] } ∧
    hostOpOf (.set 0 0) = some .setOutput ∧ HostOp.setOutput ≠ .init ∧ HostOp.apply ≠ .init ∧ HostOp.close ≠ .init :=
  ⟨⟨rfl, rfl⟩, rfl, rfl, by decide, by decide, by decide⟩

/-- PrimitivesAppendOneEvent: each call answered. -/
theorem test_witness_primitives :
    (fresh [err]).drawn (.bind (bindCfg .first .first 0)) = some .err ∧ (fresh [ok]).drawn (.write 0x8000) = some (.ok 0) ∧
    (fresh [ok 5]).drawn (.writeRead 0) = some (.ok 5) := ⟨rfl, rfl, rfl⟩

/-- InitializeAnswersItsReset: TX-1, the bind answered Err; test_init_succeeds and test_init_releases are the other two. -/
theorem test_witness_bind_fails :
    (fresh [err]).idle ∧ (fresh [err]).hs = .uninit ∧
    exec (.init .first .first (-1)) (fresh [err]) =
      .next { fresh with trace := [.bind (bindCfg .first .first (-1)) .err], responses := [.outcome .transportError] } :=
  ⟨⟨rfl, rfl⟩, rfl, rfl⟩

/-- SilentCallLeavesTheOperationWaiting: each call silent in turn. -/
theorem test_witness_silent :
    fresh.idle ∧ (ready 3 1).idle ∧ (ready 3 1).bound = true ∧
    (ready 3 1 [.silent]).drawn (.write (configWord 3 1)) = none ∧
    ({ ready 3 1 [.silent] with trace := [.write (configWord 3 1) .ok] } : State).drawn (.writeRead (configWord 3 1)) = none ∧
    (fresh [.silent]).drawn (.bind (bindCfg .first .first 0)) = none ∧ (ready 0 0 [.silent]).drawn (.write 0x8000) = none ∧
    (ready 3 1 [.silent]).drawn (.write (packCommand ⟨0, 0, 0, 63, 63, 0⟩)) = none :=
  ⟨⟨rfl, rfl⟩, ⟨rfl, rfl⟩, rfl, rfl, rfl, rfl, rfl, rfl⟩

/-- EventsOfEachOperation, its last part: TX-2, where the release alone follows the failed frame. -/
theorem test_witness_failed_frame :
    ([.bind (bindCfg .first .first (-1)) .ok, .write 0x8000 .err, .release] : List TxEvent) =
      [.bind (bindCfg .first .first (-1)) .ok] ++ .write 0x8000 .err :: [.release] ∧
    sentWord (.write 0x8000 .err) ≠ none ∧ receivedWord (.write 0x8000 .err) = none := ⟨rfl, by decide, rfl⟩

/-- ReadyHandleNeverStrobes, second part: CLOSE sends a frame with `srr` = 1 (TX-9). -/
theorem test_witness_strobe :
    exec .close (ready 0x3F 0x19 [ok]) =
      .next { closed with trace := (ready 0x3F 0x19).trace ++ [.write 0x8000 .ok, .release], responses := [.done] } ∧
    framesSent [.write 0x8000 .ok, .release] = [0x8000#16] ∧ (0x8000#16).getLsbD 15 = true := ⟨rfl, rfl, rfl⟩

/-- InitializeFollowsItsRule: a faulted handle, a READY and a CLOSED one, and each answer to either call. -/
theorem test_witness_init :
    (faulted fresh).waiting = none ∧ (faulted fresh).fault = some mark ∧ (ready 3 1).hs ≠ .uninit ∧ closed.hs ≠ .uninit ∧
    fresh.waiting = none ∧ fresh.fault = none ∧ fresh.hs = .uninit ∧
    (fresh [.silent]).drawn (.bind (bindCfg .first .first (-1))) = none ∧ (fresh [err]).drawn (.bind (bindCfg .first .first 0)) = some .err ∧
    (fresh [ok]).drawn (.bind (bindCfg .first .first (-1))) = some (.ok 0) ∧
    (∀ e, ({ ready 0 0 [.silent] with trace := [e] } : State).drawn (.write 0x8000) = none) ∧
    (∀ e, ({ ready 0 0 [err] with trace := [e] } : State).drawn (.write 0x8000) = some .err) ∧
    (∀ e, ({ ready 0 0 [ok] with trace := [e] } : State).drawn (.write 0x8000) = some (.ok 0)) :=
  ⟨rfl, rfl, by decide, by decide, rfl, rfl, rfl, rfl, rfl, rfl, fun _ => rfl, fun _ => rfl, fun _ => rfl⟩

/-- The chip-select at the boundary of R36 (D9): -1 is native, 0 is a GPIO. -/
theorem test_chip_select (cs : CsId) : chipSelect cs (-1) = .native cs ∧ chipSelect cs 0 = .gpio 0 := ⟨rfl, rfl⟩

/-- CloseFollowsItsRule and CloseAlwaysCompletes: TX-13, TX-12, TX-9, and a silent frame. -/
theorem test_witness_close :
    (faulted closed).fault = some mark ∧ closed.waiting = none ∧ closed.fault = none ∧ closed.hs = .closed ∧
    fresh.hs = .uninit ∧ (ready 0x3F 0x19).hs = .ready ∧ (ready 0x3F 0x19).waiting = none ∧
    (ready 0 0 [.silent]).drawn (.write 0x8000) = none ∧ (ready 0 0 [err]).drawn (.write 0x8000) = some .err ∧
    (ready 0 0 [ok 1]).drawn (.write 0x8000) = some (.ok 1) := by decide

/-- CmdResetSendsItsFrame and CmdConfigSendsItsFrames: a bound session and each answer. -/
theorem test_witness_wire :
    (ready 3 1).idle ∧ (ready 3 1).bound = true ∧ (ready 3 1 [.silent]).drawn (.write 0x8000) = none ∧
    (ready 3 1 [err]).drawn (.write 0x8000) = some .err ∧ (ready 3 1 [ok]).drawn (.write 0x8000) = some (.ok 0) ∧
    (ready 3 1 [.silent]).drawn (.write 0x1FFE) = none ∧ (ready 3 1 [err]).drawn (.write 0x1FFE) = some .err ∧
    (ready 3 1 [ok]).drawn (.write 0x1FFE) = some (.ok 0) ∧ (ready 3 1 [.silent]).drawn (.writeRead 0x1FFE) = none ∧
    (ready 3 1 [ok 9]).drawn (.writeRead 0x1FFE) = some (.ok 9) :=
  ⟨⟨rfl, rfl⟩, rfl, rfl, rfl, rfl, rfl, rfl, rfl, rfl, rfl⟩

/-- WireFormsNeedASession: no session, and a fault mark. -/
theorem test_witness_wire_refused :
    hostOpOf .cmdReset = none ∧ hostOpOf (.cmdConfig 0 0) = none ∧ fresh.waiting = none ∧ fresh.fault = none ∧
    fresh.bound = false ∧ (faulted fresh).fault = some mark := by decide

/-- UndefinedUseIsTheOnlyFaultMark: every row of the undefined uses (SO-26, SO-27, TX-4, TX-13 to TX-16), and one that ends
with the mark. -/
theorem test_witness_undefined_use :
    fresh.idle ∧ closed.idle ∧ (ready 3 1).idle ∧ fresh.hs ≠ .ready ∧ closed.hs ≠ .ready ∧ (ready 3 1).hs ≠ .uninit ∧
    closed.hs ≠ .uninit ∧ closed.hs = .closed ∧ hostOpOf (.set 9 9) = some .setOutput ∧ hostOpOf .apply = some .apply ∧
    hostOpOf (.init .first .first 0) = some .init ∧ hostOpOf .close = some .close ∧
    exec (.set 9 9) fresh = .next { fresh with fault := some (.notReady .setOutput .uninit) } :=
  ⟨⟨rfl, rfl⟩, ⟨rfl, rfl⟩, ⟨rfl, rfl⟩, by decide, by decide, by decide, by decide, rfl, rfl, rfl, rfl, rfl, rfl⟩

/-- FaultMarkIsSticky: SO-29, and a step that takes a request from a faulted handle. -/
theorem test_witness_sticky :
    (faulted (ready 3 1)).fault = some mark ∧ (faulted (ready 3 1)).waiting = none ∧
    step { faulted (ready 3 1) with requests := [⟨1, .output 1 1⟩] } = .next (faulted (ready 3 1)) := ⟨rfl, rfl, rfl⟩

/-- WaitingAdmitsNothing: APPLY against a silent transport. -/
theorem test_witness_waiting :
    exec .apply (ready 3 1 [.silent]) = .next { ready 3 1 with waiting := some (.write 0x0182) } := rfl

/-- UnwrittenRegisterReadFaults: a fresh handle and one closed before any bind, and INITIALIZE writing the registers even
where the reset frame fails (TX-2). -/
theorem test_witness_unwritten :
    fresh.idle ∧ fresh.outEn = none ∧
    ({ fresh with handle := .closed none } : State).idle ∧ ({ fresh with handle := .closed none } : State).outEn = none ∧
    exec .apply { fresh with handle := .closed none } =
      .next { fresh with handle := .closed none, fault := some (.notReady .apply .closed) } ∧
    ∃ t, exec (.init .first .first (-1)) (fresh [ok, err]) = .next t ∧ t.outEn ≠ none :=
  ⟨⟨rfl, rfl⟩, rfl, ⟨rfl, rfl⟩, rfl, rfl, _, rfl, by decide⟩

/-- StepRunsTheIssuedInstruction: one state for each clause. -/
theorem test_witness_step :
    fresh.waiting = none ∧ ({ fresh with wireWord := some 0x8000 } : State).wireWord = some 0x8000 ∧
    decodeWord 0x8000 = .ok .cmdReset ∧ ({ fresh with requests := [⟨3, .none⟩] } : State).wireWord = none ∧
    decodeRequest ⟨3, .none⟩ = .ok .close ∧ decodeWord 0x0001 = .error (.notEmitted 0x0001) ∧
    decodeRequest ⟨3, .output 0 0⟩ = .error (.wrongArguments .close) ∧ fresh.wireWord = none ∧ fresh.requests = [] := by decide

/-- StepKeepsTheInvariant, StepKeepsTheHostInvariant and RegistersHoldValuesFromTheFirstBind: the state after INITIALIZE
meets them, has a written register, and steps on. -/
theorem test_witness_invariant :
    (opened 3 1).HostInv ∧ (∃ t, step { opened 3 1 with requests := [⟨1, .output 2 0⟩] } = .next t ∧ t.outEn = some 0x33#8) :=
  ⟨{ inv :=
      { readyBound := fun _ => rfl
        boundReady := fun _ => .inl rfl
        readyStaged := fun r h => by cases h; unfold pairsLegal; decide
        traceBound := rfl
        traceCalls := rfl
        traceWords := fun w hw => by
          have h : w = 0x8000#16 := by simpa [opened, framesSent, sentWord, eq_comm] using hw
          subst h
          decide }
     noWireWord := rfl
     wordPairs := fun w hw => .inl (by simpa [opened, framesSent, sentWord, eq_comm] using hw) },
   ⟨_, rfl, rfl⟩⟩

/-- RegistersHoldValuesFromTheFirstBind: both sides of the equivalence hold after INITIALIZE. -/
theorem test_witness_written :
    (opened 3 1).outEn.isSome = true ∧ (opened 3 1).outConf.isSome = true ∧
    TxEvent.bind (bindCfg .first .first (-1)) .ok ∈ (opened 3 1).trace := ⟨rfl, rfl, .head _⟩

/-- TraceGrowsByAtMostThree: a step that appends three events. -/
theorem test_witness_three_events :
    ∃ t, step { fresh [ok, err] with requests := [⟨0, .session .first .first (-1)⟩] } = .next t ∧ t.trace.length = 3 := ⟨_, rfl, rfl⟩

/-- OperationsEndWhereTheTransportAnswers: a script without a silent entry, and one used up. -/
theorem test_witness_answers :
    hostOpOf .apply = some .apply ∧ (ready 3 1 [ok, err]).waiting = none ∧
    (∀ a ∈ (ready 3 1 [ok, err]).answers, a ≠ .silent) ∧ (∀ a ∈ (ready 3 1).answers, a ≠ .silent) := by decide

/-- OneResponsePerOperation, HandleFollowsTheTransitionTable and EventsOfEachOperation: TX-9, an operation that completes. -/
theorem test_witness_response :
    hostOpOf .close = some .close ∧ (ready 0x3F 0x19 [ok]).idle ∧ closed.idle ∧
    exec .close (ready 0x3F 0x19 [ok]) =
      .next { closed with trace := [.write 0x8000 .ok, .release], responses := [.done] } := ⟨rfl, ⟨rfl, rfl⟩, ⟨rfl, rfl⟩, rfl⟩

/-- ClosedIsTerminal: a CLOSED handle that steps (TX-14). -/
theorem test_witness_closed :
    step { closed with requests := [⟨0, .session .first .first (-1)⟩] } = .next { closed with fault := some (.notReady .init .closed) } := rfl

/-- OnlyInitializeReachesReady: TX-3 as a step. -/
theorem test_witness_reaches_ready :
    ∃ t, step { fresh [ok, ok] with requests := [⟨0, .session .first .first 5⟩] } = .next t ∧ t.hs = .ready := ⟨_, rfl, rfl⟩

/-- ReadyHandleNeverStrobes and BoundSessionKeepsItsConfiguration: an APPLY as a step of a READY handle that stays READY. -/
theorem test_witness_ready_step :
    (opened 3 1).wireWord = none ∧
    ∃ t, step { opened 3 1 [ok, ok 0x0182] with requests := [⟨2, .none⟩] } = .next t ∧ t.hs = .ready ∧
      t.trace = (opened 3 1).trace ++ [.write 0x0182 .ok, .writeRead 0x0182 (.ok 0x0182)] := ⟨rfl, _, rfl, rfl, rfl⟩

/-- BoundSessionKeepsItsConfiguration, second part: an INITIALIZE that ends READY (TX-17). -/
theorem test_witness_init_ready :
    ({ fresh [ok, ok] with handle := .uninit (some ⟨0, 0⟩) } : State).idle ∧
    ∃ t, exec (.init .first .first (-1)) { fresh [ok, ok] with handle := .uninit (some ⟨0, 0⟩) } = .next t ∧ t.hs = .ready :=
  ⟨⟨rfl, rfl⟩, _, rfl, rfl⟩

/-- ApplyAgainstTheEchoDeviceSucceeds: the device's script after a reset frame (95_test_vectors.md section 4). -/
theorem test_witness_echo :
    echoScript [(.write (configWord 3 1), noFaults), (.writeRead (configWord 3 1), noFaults)] ⟨0, noFaults⟩ =
      [ok 0x0000, ok 0x0182] := by decide

/-- EchoDeviceKeepsItsLatches: a bit raised at the first frame, and both kinds of word. -/
theorem test_witness_latches :
    joinFaults noFaults ⟨false, false, false, true⟩ ≠ noFaults ∧
    echoScript [(.write (configWord 3 1), ⟨false, false, false, true⟩), (.writeRead (configWord 3 1), noFaults)]
      echoInitial = [ok 0x0000, ok 0x8182] ∧
    (0x0182#16).getLsbD 15 = false ∧ (0x8000#16).getLsbD 15 = true := by decide

/-- AssembledLinesAreHostRequests: a line that assembles (P2, line 8). -/
theorem test_witness_line :
    assembleLine ['s', 'e', 't', ' ', '0', ',', ' ', '-', '1'] = .ok (some ⟨1, .output 0 (-1)⟩) := by decide

end Sys2Proof.Tests
end

section
/-! PROOFS. The pairs of a staged register bit by bit (00_scope.md R14), the answered transport calls (R12), and the
obligations about them. -/

namespace Sys2Proof.Machine

/-! ### Pairs: which bit of the register each bit of a pair is -/

theorem getPair_getLsbD (r : Byte) (a : Axis) (i : Nat) :
    (getPair r a).getLsbD i = (decide (i < 2) && r.getLsbD (2 * a.val + i)) := by
  simp [getPair]

/-- The mask of `setPair` covers the two bits of its pair and no other. -/
theorem pairMask_getLsbD :
    ∀ (a : Axis) (j : Fin 8), (3#8 <<< (2 * a.val)).getLsbD j.val = decide (j.val / 2 = a.val) := by decide

theorem setPair_getLsbD (r : Byte) (a : Axis) (v : BitVec 2) {j : Nat} (hj : j < 8) :
    (setPair r a v).getLsbD j = if j / 2 = a.val then v.getLsbD (j % 2) else r.getLsbD j := by
  have mask : (3#8 <<< (2 * a.val)).getLsbD j = decide (j / 2 = a.val) := pairMask_getLsbD a ⟨j, hj⟩
  rw [setPair, BitVec.getLsbD_or, BitVec.getLsbD_and, BitVec.getLsbD_not, mask, BitVec.getLsbD_shiftLeft,
    BitVec.getLsbD_setWidth]
  split
  case isTrue inside =>
    have place : j - 2 * a.val = j % 2 := by omega
    have reached : ¬ j < 2 * a.val ∧ j % 2 < 8 := by omega
    simp [inside, place, reached, hj]
  case isFalse outside =>
    have above : ¬ j < 2 * a.val → v.getLsbD (j - 2 * a.val) = false := fun h => BitVec.getLsbD_of_ge v _ (by omega)
    by_cases below : j < 2 * a.val <;> simp [outside, below, above, hj]

/-- Every bit of a register is in one of its four pairs. -/
theorem eq_of_getPair_eq {r r' : Byte} (h : ∀ a : Axis, getPair r a = getPair r' a) : r = r' := by
  refine BitVec.eq_of_getLsbD_eq fun j hj => ?_
  have bit := congrArg (·.getLsbD (j % 2)) (h ⟨j / 2, by omega⟩)
  have place : 2 * (j / 2) + j % 2 = j := by omega
  have small : j % 2 < 2 := by omega
  simpa only [getPair_getLsbD, place, small, decide_true, Bool.true_and] using bit

@[simp] theorem getPair_setPair_same (r : Byte) (a : Axis) (v : BitVec 2) : getPair (setPair r a v) a = v := by
  refine BitVec.eq_of_getLsbD_eq fun i hi => ?_
  have inPair : (2 * a.val + i) / 2 = a.val := by omega
  have place : (2 * a.val + i) % 2 = i := by omega
  rw [getPair_getLsbD, setPair_getLsbD r a v (by omega), if_pos inPair, place]
  simp [hi]

@[simp] theorem getPair_setPair_other (r : Byte) {a b : Axis} (v : BitVec 2) (hab : b ≠ a) :
    getPair (setPair r a v) b = getPair r b := by
  refine BitVec.eq_of_getLsbD_eq fun i hi => ?_
  have otherPair : (2 * b.val + i) / 2 ≠ a.val := fun h => hab (Fin.ext (by omega))
  rw [getPair_getLsbD, getPair_getLsbD, setPair_getLsbD r a v (by omega), if_neg otherPair]

/-- Settles O19: a register and its four pairs determine each other, bit by bit. -/
theorem pairsAreTheWholeRegister : Obligations.PairsAreTheWholeRegister :=
  ⟨fun _ _ => eq_of_getPair_eq, getPair_setPair_same, fun r _ _ v => getPair_setPair_other r v⟩

/-! ### Answered transport calls -/

@[simp] theorem ackOf_eq_err {r : Reply} : ackOf r = .err ↔ r = .err := by cases r <;> simp [ackOf]

@[simp] theorem State.bindBy_trace (a : Option Reply) (s : State) : (s.bindBy a).trace = s.trace := by
  rcases a with _ | _ | _ <;> rfl

/-- An Ok bind binds the session (20_memory.md R36). -/
theorem State.bindBy_bound {r : Reply} (s : State) (h : ackOf r = .ok) : (s.bindBy (some r)).bound = true := by
  cases r with
  | ok _ => rfl
  | err => cases h

theorem txBind_answered {cfg : BindCfg} {s : State} {r : Reply} (h : s.drawn (.bind cfg) = some r) :
    txBind cfg s = ((s.popAnswer.logEvent (.bind cfg (ackOf r))).bindBy (some r), some (ackOf r)) := by
  simp [txBind, transact_answered h, eventOf]

/-- Settles O16: each primitive's answered form logs its one event and gives the same answer back. -/
theorem primitivesAppendOneEvent : Obligations.PrimitivesAppendOneEvent := by
  refine ⟨?bind, ?release, ?write, ?writeRead⟩
  case bind =>
    intro s cfg r h
    rw [txBind_answered h]
    exact ⟨ackOf r, rfl, by simp, ackOf_eq_err, State.bindBy_bound _⟩
  case release => exact fun s => ⟨txRelease_trace s, txRelease_bound s⟩
  case write =>
    intro s w r h
    rw [txWrite_answered h]
    exact ⟨ackOf r, rfl, by simp, ackOf_eq_err⟩
  case writeRead =>
    intro s w r h
    rw [txWriteRead_answered h]
    exact ⟨rfl, by simp⟩

end Sys2Proof.Machine
end

section
/-! PROOFS. The two invariants at reset and under a step (10_state.md R25, R31, R32), the fault mark (R27), the wire forms
without a session, and what a step makes of the trace, the staged registers and the handle state (R20, R28, R34). -/

namespace Sys2Proof.Machine

/-! ### The words the engine sends -/

theorem resetWord_legal : commandWordLegal resetWord = true := by decide

theorem configWord_legal (en conf : Byte) : commandWordLegal (configWord en conf) = true := by
  have row : (configWord en conf).toNat &&& 0xE001 = 0 := (Laws.TableRow.cmdConfig (en.setWidth 6) (conf.setWidth 6)).1
  have masked : configWord en conf &&& 0xE001#16 = 0#16 := BitVec.eq_of_toNat_eq (by simpa using row)
  simp [commandWordLegal, masked]

/-! ### Frames leave the session as it is -/

theorem openAfter_frame {e : TxEvent} {w : Word} (h : sentWord e = some w) (b : Bool) : openAfter b e = b := by
  cases e with
  | write => rfl
  | writeRead => rfl
  | bind => cases h
  | release => cases h

theorem eventAllowed_frame {e : TxEvent} {w : Word} (h : sentWord e = some w) (b : Bool) : eventAllowed b e = b := by
  cases e with
  | write => rfl
  | writeRead => rfl
  | bind => cases h
  | release => cases h

theorem cfgAfter_frame {e : TxEvent} {w : Word} (h : sentWord e = some w) (c : Option BindCfg) : cfgAfter c e = c := by
  cases e with
  | write => rfl
  | writeRead => rfl
  | bind => cases h
  | release => cases h

/-! ### Traces, one event at a time -/

theorem traceLegal_append (b : Bool) (xs ys : List TxEvent) :
    traceLegal b (xs ++ ys) = (traceLegal b xs && traceLegal (xs.foldl openAfter b) ys) := by
  induction xs generalizing b with
  | nil => rfl
  | cons e es ih => simp [traceLegal, ih, Bool.and_assoc]

/-- What `State.Inv` says of a trace and the bound flag (10_state.md R25, 30_encoding.md R55). -/
structure TraceSound (tr : List TxEvent) (b : Bool) : Prop where
  session : sessionOpen tr = b
  calls : traceLegal false tr = true
  words : ∀ w ∈ framesSent tr, commandWordLegal w = true

theorem TraceSound.nil : TraceSound [] false := ⟨rfl, rfl, by simp [framesSent]⟩

section

variable {tr : List TxEvent} {b : Bool} {e : TxEvent}

/-- An event that may happen, with a legal word if it has one, keeps the trace sound. -/
theorem TraceSound.snoc (h : TraceSound tr b) (allowed : eventAllowed b e = true)
    (legal : ∀ w, sentWord e = some w → commandWordLegal w = true) : TraceSound (tr ++ [e]) (openAfter b e) where
  session := by simpa [sessionOpen] using congrArg (openAfter · e) h.session
  calls := by
    have opened : tr.foldl openAfter false = b := h.session
    simp [traceLegal_append, h.calls, opened, traceLegal, allowed]
  words w hw := by
    obtain ⟨d, hd, sent⟩ := List.mem_filterMap.mp hw
    rcases List.mem_append.mp hd with old | new
    · exact h.words w (List.mem_filterMap.mpr ⟨d, old, sent⟩)
    · cases List.mem_singleton.mp new
      exact legal w sent

theorem TraceSound.frame {w : Word} (h : TraceSound tr true) (he : sentWord e = some w)
    (hw : commandWordLegal w = true) : TraceSound (tr ++ [e]) true := by
  simpa only [openAfter_frame he] using
    h.snoc (e := e) (eventAllowed_frame he true) fun v hv => by cases he.symm.trans hv; exact hw

theorem TraceSound.bind (h : TraceSound tr false) (cfg : BindCfg) : TraceSound (tr ++ [.bind cfg .ok]) true :=
  h.snoc rfl nofun

theorem TraceSound.bindFailed (h : TraceSound tr false) (cfg : BindCfg) : TraceSound (tr ++ [.bind cfg .err]) false :=
  h.snoc rfl nofun

theorem TraceSound.release (h : TraceSound tr true) : TraceSound (tr ++ [.release]) false :=
  h.snoc rfl nofun

end

/-! ### The engine's invariant under the operations on the state -/

theorem pairsLegal_cleared : pairsLegal clearedRegisters.outEn clearedRegisters.outConf := by
  unfold pairsLegal; decide

/-- SET_OUTPUT writes a legal pair and keeps the others (40_device_state.md R71 to R73). -/
theorem pairsLegal_setOutput {r : Staged} (a : Axis) (d : Direction) (h : pairsLegal r.outEn r.outConf) :
    pairsLegal (setOutput a d r).outEn (setOutput a d r).outConf := by
  intro b
  by_cases hb : b = a
  · subst hb
    have dir : directionPair d ≠ 0b11 := by cases d <;> decide
    exact .inr ⟨getPair_setPair_same _ _ _, by simpa [setOutput] using dir⟩
  · simpa [setOutput, getPair_setPair_other _ _ hb] using h b

theorem Handle.write_eq_ready {h : Handle} {r q : Staged} (e : h.write r = .ready q) : q = r := by
  cases h <;> cases e
  rfl

section

variable {s : State}

theorem State.Inv.traceSound (h : s.Inv) : TraceSound s.trace s.bound := ⟨h.traceBound, h.traceCalls, h.traceWords⟩

/-- With no session bound and the handle not READY, the invariant speaks of the trace alone. -/
theorem State.Inv.of_unbound (hb : s.bound = false) (hr : s.hs ≠ .ready) (ht : TraceSound s.trace false) : s.Inv where
  readyBound h := absurd h hr
  boundReady h := absurd (hb.symm.trans h) (by decide)
  readyStaged _ h := absurd (State.ready_hs h) hr
  traceBound := ht.session.trans hb.symm
  traceCalls := ht.calls
  traceWords := ht.words

/-- With a session bound, the handle is READY with legal registers, or an operation waits. -/
theorem State.Inv.of_bound (hb : s.bound = true) (hr : s.hs = .ready ∨ s.waiting.isSome = true)
    (staged : ∀ r, s.handle = .ready r → pairsLegal r.outEn r.outConf) (ht : TraceSound s.trace true) : s.Inv where
  readyBound _ := hb
  boundReady _ := hr
  readyStaged := staged
  traceBound := ht.session.trans hb.symm
  traceCalls := ht.calls
  traceWords := ht.words

theorem State.Inv.unbound_of_uninit (h : s.Inv) (hw : s.waiting = none) (hu : s.hs = .uninit) : s.bound = false :=
  Bool.eq_false_iff.mpr fun hb => by simpa [hu, hw] using h.boundReady hb

theorem State.Inv.respond (h : s.Inv) (r : Response) : (s.respond r).Inv := { h with }

theorem State.Inv.raise (h : s.Inv) (m : FaultMark) : (s.raise m).Inv := { h with }

theorem State.Inv.hang (h : s.Inv) (call : TxCall) : (s.popAnswer.hang call).Inv :=
  { h with boundReady := fun _ => .inr rfl }

theorem State.Inv.stage (h : s.Inv) {r : Staged} (hr : pairsLegal r.outEn r.outConf) : (s.stage r).Inv :=
  { h with
    readyBound := fun e => h.readyBound (by simpa using e)
    boundReady := fun e => by simpa using h.boundReady e
    readyStaged := fun q e => by cases Handle.write_eq_ready e; exact hr }

theorem State.Inv.frame (h : s.Inv) (hb : s.bound = true) {e : TxEvent} {w : Word} (he : sentWord e = some w)
    (hw : commandWordLegal w = true) : (s.popAnswer.logEvent e).Inv :=
  have sound := (hb ▸ h.traceSound).frame he hw
  { h with
    traceBound := sound.session.trans hb.symm
    traceCalls := sound.calls
    traceWords := sound.words }

/-- The two frames of a CMD_CONFIG word keep the invariant of a bound session. -/
theorem Sent.inv {w : Word} {p : State × Option OutcomeCode} (hp : Sent w s p) (h : s.Inv) (hb : s.bound = true)
    (hw : commandWordLegal w = true) : p.1.Inv := by
  cases hp with
  | firstSilent => exact h.hang _
  | firstErr => exact h.frame hb rfl hw
  | secondSilent => exact (h.frame hb rfl hw).hang _
  | secondErr => exact (h.frame hb rfl hw).frame hb rfl hw
  | replied r => exact (h.frame hb rfl hw).frame hb rfl hw

theorem respondWith_inv {p : State × Option OutcomeCode} (h : p.1.Inv) : (respondWith p).Inv := by
  obtain ⟨t, _ | o⟩ := p
  · exact h
  · exact h.respond _

/-- INITIALIZE's bind answered Ok and its reset frame attempted (43_transaction_sequencer.md R95). -/
theorem State.Inv.traceSound_bind_reset (h : s.Inv) (hb : s.bound = false) (cfg : BindCfg) (a : Ack) :
    TraceSound (s.trace ++ [.bind cfg .ok] ++ [.write resetWord a]) true :=
  ((hb ▸ h.traceSound).bind cfg).frame rfl resetWord_legal

/-- Every path of an instruction keeps the invariant. -/
theorem Effect.inv {t : State} {i : Instr} (e : Effect s i t) (h : s.Inv) (hw : s.waiting = none) : t.Inv := by
  have unbound := h.unbound_of_uninit hw
  cases e with
  | invalid => exact h.respond _
  | staged _ _ a dir r hr => exact (h.stage (pairsLegal_setOutput a dir (h.readyStaged r hr))).respond _
  | applied r p hr hp => exact respondWith_inv (hp.inv h (h.readyBound (State.ready_hs hr)) (configWord_legal _ _))
  | bindSilent => exact h.hang _
  | bindErr _ _ _ hu =>
    exact .of_unbound (unbound hu) (by simp [hu]) ((unbound hu ▸ h.traceSound).bindFailed _)
  | resetSilent _ _ _ hu =>
    exact .of_bound rfl (.inr rfl) (fun q e => by cases Handle.write_eq_ready e; exact pairsLegal_cleared)
      ((unbound hu ▸ h.traceSound).bind _)
  | resetOk _ _ _ hu =>
    exact .of_bound rfl (.inl rfl) (fun q e => by cases e; exact pairsLegal_cleared)
      (h.traceSound_bind_reset (unbound hu) _ _)
  | resetErr _ _ _ hu => exact .of_unbound rfl (by simp [hu]) (h.traceSound_bind_reset (unbound hu) _ _).release
  | closeUninit hu => exact .of_unbound (unbound hu) (by simp) (unbound hu ▸ h.traceSound)
  | closeSilent => exact (h.stage pairsLegal_cleared).hang _
  | closeReady a hr =>
    exact .of_unbound rfl (by simp) ((h.readyBound hr ▸ h.traceSound).frame rfl resetWord_legal).release
  | strobeSilent => exact h.hang _
  | strobe a hb => exact h.frame hb rfl resetWord_legal
  | configured _ _ p hb hp => exact hp.inv h hb (configWord_legal _ _)

end

/-! ### Instructions and steps -/

section

variable {s t : State} {i : Instr}

theorem exec_keeps_inv (hx : exec i s = .next t) (h : s.Inv) : t.Inv := by
  obtain ⟨hw, ⟨-, rfl⟩ | ⟨-, op, -, -, rfl⟩ | ⟨-, -, e⟩⟩ := exec_next hx
  · exact h
  · exact h.raise _
  · exact e.inv h hw

/-- Taking the next thing issued touches the model's own inputs only (logs 5, 6). -/
theorem nextIssue_inputs {u : State} {e : Encoded} (h : s.nextIssue = some (e, u)) :
    ∃ w rs, u = { s with wireWord := w, requests := rs } := by
  obtain ⟨w, -, -, rfl⟩ | ⟨r, rest, -, -, -, rfl⟩ := nextIssue_cases h
  · exact ⟨none, s.requests, rfl⟩
  · exact ⟨s.wireWord, rest, rfl⟩

/-- A step changes nothing, or runs an instruction on the same state with other inputs. -/
theorem step_cases (h : step s = .next t) :
    t = s ∨ ∃ i w rs, exec i { s with wireWord := w, requests := rs } = .next t := by
  obtain ⟨-, ⟨-, rfl⟩ | ⟨e, u, i, hn, -, hx⟩⟩ := step_next h
  · exact .inl rfl
  · obtain ⟨w, rs, rfl⟩ := nextIssue_inputs hn
    exact .inr ⟨i, w, rs, hx⟩

end

/-- The invariant does not read the model's inputs. -/
theorem State.Inv.with_inputs {s : State} (h : s.Inv) (w : Option Word) (rs : List HostRequest) :
    State.Inv { s with wireWord := w, requests := rs } := { h with }

/-- Settles O44: the invariant is kept by each path of each instruction, and a step adds nothing to that. -/
theorem stepKeepsTheInvariant : Obligations.StepKeepsTheInvariant := by
  intro s t h hs
  obtain rfl | ⟨i, w, rs, hx⟩ := step_cases hs
  · exact h
  · exact exec_keeps_inv hx (h.with_inputs w rs)

/-- Settles O43: a fresh handle has no session and an empty trace. -/
theorem resetMeetsTheInvariants : Obligations.ResetMeetsTheInvariants := by
  have inv : State.reset.Inv := .of_unbound rfl (by simp) .nil
  exact ⟨inv, inv, rfl, by simp [State.reset, framesSent]⟩

/-! ### A recorded fault, and a wire form without a session -/

section

variable {s : State}

theorem unlessStopped_faulted {m : FaultMark} {b : Host.Outcome State Fault Refusal} (hw : s.waiting = none)
    (hf : s.fault = some m) : unlessStopped s b = .next s := by
  simp [unlessStopped, hw, hf]

/-- Every instruction looks at the mark before anything else (60_exceptions.md R119). -/
theorem exec_faulted {m : FaultMark} (i : Instr) (hw : s.waiting = none) (hf : s.fault = some m) :
    exec i s = .next s := by
  cases i <;> exact unlessStopped_faulted hw hf

theorem onSession_unbound {b : Host.Outcome State Fault Refusal} (hw : s.waiting = none) (hf : s.fault = none)
    (hb : s.bound = false) : onSession s b = .refused .noSession := by
  simp [onSession, unlessStopped_body hw hf, hb]

end

/-- Settles O37: `exec` changes nothing in a faulted state, and a step only takes an input. -/
theorem faultMarkIsSticky : Obligations.FaultMarkIsSticky := by
  intro s m hf
  refine ⟨fun i hw => exec_faulted i hw hf, fun t hs => ?_, fun ⟨noFault, _⟩ => ?_⟩
  · obtain rfl | ⟨i, w, rs, hx⟩ := step_cases hs
    · exact hf
    · obtain ⟨hw, -⟩ := exec_next hx
      cases (exec_faulted i hw hf).symm.trans hx
      exact hf
  · cases hf.symm.trans noFault

/-- Settles O35: the guard of both wire forms, its two answers where they make no call. -/
theorem wireFormsNeedASession : Obligations.WireFormsNeedASession := by
  intro s i hi hw
  refine ⟨fun hf hb => ?_, fun m => exec_faulted i hw⟩
  cases i with
  | cmdReset => exact onSession_unbound hw hf hb
  | cmdConfig => exact onSession_unbound hw hf hb
  | _ => cases hi

/-! ### What a step makes of the trace, the registers and the handle state -/

/-- The events an instruction appends, with what becomes of the handle: from `h` to `h'`. -/
inductive Exchange (h h' : Handle) : List TxEvent → Prop
  /-- At most two frames of one word; the registers get or lose no value, and the handle state is kept or CLOSED. -/
  | frames (w : Word) (events : List TxEvent) (few : events.length ≤ 2) (sent : ∀ e ∈ events, sentWord e = some w)
      (registers : h'.staged.isSome = h.staged.isSome) (state : h'.state = h.state ∨ h'.state = .closed) :
      Exchange h h' events
  /-- INITIALIZE whose bind fails. -/
  | bindFailed (cfg : BindCfg) (uninit : h.state = .uninit) (same : h' = h) : Exchange h h' [.bind cfg .err]
  /-- INITIALIZE whose bind is answered Ok: the registers hold values from then on. -/
  | bound (cfg : BindCfg) (rest : List TxEvent) (few : rest.length ≤ 2) (uninit : h.state = .uninit)
      (registers : h'.staged.isSome = true) : Exchange h h' (.bind cfg .ok :: rest)
  /-- CLOSE of a READY handle. -/
  | released (w : Word) (a : Ack) (ready : h.state = .ready) (closed : h'.state = .closed)
      (registers : h'.staged.isSome = true) : Exchange h h' [.write w a, .release]

theorem Exchange.silent {h h' : Handle} (registers : h'.staged.isSome = h.staged.isSome)
    (state : h'.state = h.state ∨ h'.state = .closed) : Exchange h h' [] :=
  .frames 0 [] (by simp) (by simp) registers state

/-- `t` comes from `s` by an exchange. -/
def Exchanged (s t : State) : Prop :=
  ∃ events, t.trace = s.trace ++ events ∧ Exchange s.handle t.handle events

theorem Exchanged.silent {s t : State} (trace : t.trace = s.trace)
    (registers : t.handle.staged.isSome = s.handle.staged.isSome)
    (state : t.hs = s.hs ∨ t.hs = .closed) : Exchanged s t :=
  ⟨[], by simp [trace], .silent registers state⟩

@[simp] theorem Handle.closed_staged (r : Option Staged) : (Handle.closed r).staged = r := rfl

theorem Handle.staged_of_ready {h : Handle} (hr : h.state = .ready) : h.staged.isSome = true := by
  cases h with
  | ready r => rfl
  | uninit => cases hr
  | closed => cases hr

theorem Sent.exchanged {w : Word} {s : State} {p : State × Option OutcomeCode} (hp : Sent w s p) : Exchanged s p.1 := by
  cases hp with
  | firstSilent => exact .silent rfl rfl (.inl rfl)
  | firstErr => exact ⟨[.write w .err], rfl, .frames w _ (by simp) (by simp [sentWord]) rfl (.inl rfl)⟩
  | secondSilent => exact ⟨[.write w .ok], rfl, .frames w _ (by simp) (by simp [sentWord]) rfl (.inl rfl)⟩
  | secondErr =>
    exact ⟨[.write w .ok, .writeRead w .err], by simp, .frames w _ (by simp) (by simp [sentWord]) rfl (.inl rfl)⟩
  | replied r =>
    exact ⟨[.write w .ok, .writeRead w (.ok r)], by simp, .frames w _ (by simp) (by simp [sentWord]) rfl (.inl rfl)⟩

theorem respondWith_exchanged {s : State} {p : State × Option OutcomeCode} (h : Exchanged s p.1) :
    Exchanged s (respondWith p) := by
  obtain ⟨t, _ | o⟩ := p <;> exact h

theorem Effect.exchanged {s t : State} {i : Instr} (e : Effect s i t) : Exchanged s t := by
  cases e with
  | invalid => exact .silent rfl rfl (.inl rfl)
  | staged _ _ _ _ _ hr => exact .silent rfl (by simp [Handle.staged_of_ready (State.ready_hs hr)]) (.inl (by simp))
  | applied r p hr hp => exact respondWith_exchanged hp.exchanged
  | bindSilent => exact .silent rfl rfl (.inl rfl)
  | bindErr bus cs g hu => exact ⟨_, rfl, .bindFailed (bindCfg bus cs g) hu rfl⟩
  | resetSilent bus cs g hu => exact ⟨_, rfl, .bound (bindCfg bus cs g) [] (by simp) hu (by simp)⟩
  | resetOk bus cs g hu =>
    exact ⟨_, by simp, .bound (bindCfg bus cs g) [.write resetWord .ok] (by simp) hu rfl⟩
  | resetErr bus cs g hu =>
    exact ⟨_, by simp, .bound (bindCfg bus cs g) [.write resetWord .err, .release] (by simp) hu (by simp)⟩
  | closeUninit => exact .silent rfl rfl (.inr rfl)
  | closeSilent hr => exact .silent rfl (by simp [Handle.staged_of_ready hr]) (.inl (by simp))
  | closeReady a hr => exact ⟨_, by simp, .released resetWord a hr rfl (by simp)⟩
  | strobeSilent => exact .silent rfl rfl (.inl rfl)
  | strobe a => exact ⟨[.write resetWord a], rfl, .frames resetWord _ (by simp) (by simp [sentWord]) rfl (.inl rfl)⟩
  | configured _ _ _ _ hp => exact hp.exchanged

theorem exec_exchanged {i : Instr} {s t : State} (h : exec i s = .next t) : Exchanged s t := by
  obtain ⟨-, ⟨-, rfl⟩ | ⟨-, op, -, -, rfl⟩ | ⟨-, -, e⟩⟩ := exec_next h
  · exact .silent rfl rfl (.inl rfl)
  · exact .silent rfl rfl (.inl rfl)
  · exact e.exchanged

theorem step_exchanged {s t : State} (h : step s = .next t) : Exchanged s t := by
  obtain rfl | ⟨i, w, rs, hx⟩ := step_cases h
  · exact .silent rfl rfl (.inl rfl)
  · have x := exec_exchanged hx
    exact x

theorem Exchange.length_le {h h' : Handle} {events : List TxEvent} (x : Exchange h h' events) : events.length ≤ 3 := by
  cases x with
  | frames _ _ few => omega
  | bindFailed => simp
  | bound _ _ few => exact Nat.succ_le_succ few
  | released => simp

/-- Settles O47: an exchange has at most three events, INITIALIZE releasing its session after a failed frame. -/
theorem traceGrowsByAtMostThree : Obligations.TraceGrowsByAtMostThree := by
  intro s t hs
  obtain ⟨events, trace, x⟩ := step_exchanged hs
  exact ⟨events, trace, x.length_le⟩

/-- Settles O52: INITIALIZE binds from UNINIT and CLOSE releases from READY; every other exchange keeps the handle state
or makes it CLOSED. -/
theorem closedIsTerminal : Obligations.ClosedIsTerminal := by
  intro s t hc hs
  obtain ⟨events, -, x⟩ := step_exchanged hs
  cases x with
  | frames _ _ _ _ _ state => exact state.elim (·.trans hc) id
  | bindFailed _ uninit => cases hc.symm.trans uninit
  | bound _ _ _ uninit => cases hc.symm.trans uninit
  | released _ _ ready => cases hc.symm.trans ready

/-- A trace has a bind answered Ok (10_state.md R34). -/
def HasBound (tr : List TxEvent) : Prop := ∃ cfg, TxEvent.bind cfg .ok ∈ tr

theorem HasBound.append {tr : List TxEvent} (h : HasBound tr) (events : List TxEvent) : HasBound (tr ++ events) :=
  h.imp fun _ => List.mem_append_left events

theorem hasBound_append_of_forall {tr events : List TxEvent} (h : ∀ cfg, TxEvent.bind cfg .ok ∉ events) :
    HasBound (tr ++ events) ↔ HasBound tr := by
  simp [HasBound, h]

/-- An exchange gives the registers values exactly when it has a bind answered Ok. -/
theorem Exchange.keeps_written {h h' : Handle} {tr events : List TxEvent} (x : Exchange h h' events)
    (written : h.staged.isSome = true ↔ HasBound tr) : h'.staged.isSome = true ↔ HasBound (tr ++ events) := by
  cases x with
  | frames w _ _ sent registers =>
    have noBind : ∀ cfg, TxEvent.bind cfg .ok ∉ events := fun cfg hc => by cases sent _ hc
    rw [registers, written, hasBound_append_of_forall noBind]
  | bindFailed cfg _ same => rw [same, written, hasBound_append_of_forall (by simp)]
  | bound cfg rest _ _ registers => exact iff_of_true registers ⟨cfg, by simp⟩
  | released w a ready _ registers =>
    have before : h.staged.isSome = true := Handle.staged_of_ready ready
    exact iff_of_true registers ((written.mp before).append _)

theorem State.outEn_isSome (s : State) : s.outEn.isSome = s.handle.staged.isSome := Option.isSome_map

theorem State.outConf_isSome (s : State) : s.outConf.isSome = s.handle.staged.isSome := Option.isSome_map

/-- Settles O46: both registers hold a value where the handle's registers do, and an exchange keeps the equivalence. -/
theorem registersHoldValuesFromTheFirstBind : Obligations.RegistersHoldValuesFromTheFirstBind := by
  refine ⟨?reset, fun s t _ written hs => ?step⟩
  case reset => simp [show State.reset.trace = [] from rfl]
  case step =>
    obtain ⟨events, trace, x⟩ := step_exchanged hs
    have before : s.handle.staged.isSome = true ↔ HasBound s.trace := State.outEn_isSome s ▸ written.1
    have after : t.handle.staged.isSome = true ↔ HasBound t.trace := trace ▸ x.keeps_written before
    exact ⟨State.outEn_isSome t ▸ after, State.outConf_isSome t ▸ after⟩

/-! ### The bind record of a session -/

theorem foldl_cfgAfter_frames {w : Word} {events : List TxEvent} (h : ∀ e ∈ events, sentWord e = some w)
    (c : Option BindCfg) : events.foldl cfgAfter c = c := by
  induction events with
  | nil => rfl
  | cons e es ih =>
    obtain ⟨he, hes⟩ := List.forall_mem_cons.mp h
    rw [List.foldl_cons, cfgAfter_frame he, ih hes]

theorem Exchange.keeps_cfg {h h' : Handle} {events : List TxEvent} (x : Exchange h h' events) (hr : h.state = .ready)
    (hr' : h'.state = .ready) (tr : List TxEvent) : boundCfg (tr ++ events) = boundCfg tr := by
  cases x with
  | frames w _ _ sent => rw [boundCfg, List.foldl_append, foldl_cfgAfter_frames sent, boundCfg]
  | bindFailed _ uninit => cases hr.symm.trans uninit
  | bound _ _ _ uninit => cases hr.symm.trans uninit
  | released _ _ _ closed => cases hr'.symm.trans closed

/-- The one path on which INITIALIZE ends READY. -/
theorem Effect.init_ready_trace {s t : State} {bus : BusId} {cs : CsId} {g : Int} (e : Effect s (.init bus cs g) t)
    (hr : t.hs = .ready) : t.trace = s.trace ++ [.bind (bindCfg bus cs g) .ok, .write resetWord .ok] := by
  cases e with
  | resetOk => simp
  | bindSilent _ _ _ hu => simp [hu] at hr
  | bindErr _ _ _ hu => simp [hu] at hr
  | resetSilent _ _ _ hu => simp [hu] at hr
  | resetErr _ _ _ hu => simp [hu] at hr

/-- Settles O55: a READY handle's step appends frames only, and INITIALIZE ends READY on one path only. -/
theorem boundSessionKeepsItsConfiguration : Obligations.BoundSessionKeepsItsConfiguration := by
  refine ⟨fun s t hr hr' hs => ?_, fun s t bus cs g ⟨hw, hf⟩ hu hx hr => ?_⟩
  · obtain ⟨events, trace, x⟩ := step_exchanged hs
    rw [trace, x.keeps_cfg hr hr']
  · obtain ⟨-, ⟨faulted, -⟩ | ⟨-, op, -, -, rfl⟩ | ⟨-, -, e⟩⟩ := exec_next hx
    · exact absurd hf faulted
    · simp [hu] at hr
    · simp [e.init_ready_trace hr, boundCfg, cfgAfter]

/-! ### Registers that hold no value -/

theorem State.outEn_eq_none {s : State} : s.outEn = none ↔ s.handle.staged = none := by simp [State.outEn]

theorem State.outConf_eq_none {s : State} : s.outConf = none ↔ s.handle.staged = none := by simp [State.outConf]

theorem State.not_ready_of_unwritten {s : State} (h : s.outEn = none) : s.hs ≠ .ready := fun hr => by
  obtain ⟨r, hr⟩ := State.hs_ready.mp hr
  cases (State.ready_outEn hr).symm.trans h

theorem Sent.outEn {w : Word} {s : State} {p : State × Option OutcomeCode} (hp : Sent w s p) : p.1.outEn = s.outEn := by
  cases hp <;> rfl

/-- Only INITIALIZE writes registers that hold no value, and it clears them (43_transaction_sequencer.md R95). -/
theorem Effect.writes_unwritten {s t : State} {i : Instr} (e : Effect s i t) (hs : s.outEn = none)
    (ht : t.outEn ≠ none) :
    (∃ bus cs gpioCs, i = .init bus cs gpioCs) ∧ t.outEn = some 0x00#8 ∧ t.outConf = some 0x00#8 := by
  have notReady := State.not_ready_of_unwritten hs
  cases e with
  | resetSilent bus cs g => exact ⟨⟨bus, cs, g, rfl⟩, by simp [clearedRegisters], by simp [clearedRegisters]⟩
  | resetOk bus cs g => exact ⟨⟨bus, cs, g, rfl⟩, rfl, rfl⟩
  | resetErr bus cs g => exact ⟨⟨bus, cs, g, rfl⟩, by simp [clearedRegisters], by simp [clearedRegisters]⟩
  | bindSilent => exact absurd hs ht
  | bindErr => exact absurd hs ht
  | closeUninit => exact absurd hs ht
  | strobeSilent => exact absurd hs ht
  | strobe => exact absurd hs ht
  | configured _ _ _ _ hp => exact absurd (hp.outEn.trans hs) ht
  | invalid _ _ hr => exact absurd hr notReady
  | staged _ _ _ _ _ hr => exact absurd (State.ready_hs hr) notReady
  | applied _ _ hr => exact absurd (State.ready_hs hr) notReady
  | closeSilent hr => exact absurd hr notReady
  | closeReady _ hr => exact absurd hr notReady

/-- Settles O40: a handle without values is not READY, so the guard of SET_OUTPUT and APPLY raises the mark. -/
theorem unwrittenRegisterReadFaults : Obligations.UnwrittenRegisterReadFaults := by
  refine fun s => ⟨State.outEn_eq_none.trans State.outConf_eq_none.symm, fun ⟨hw, hf⟩ hs => ?_⟩
  have notReady := State.not_ready_of_unwritten hs
  refine ⟨notReady, fun _ _ => onReady_notReady hw hf notReady, onReady_notReady hw hf notReady, fun i t hx ht => ?_⟩
  obtain ⟨-, ⟨faulted, -⟩ | ⟨-, op, -, -, rfl⟩ | ⟨-, -, e⟩⟩ := exec_next hx
  · exact absurd hf faulted
  · exact absurd hs ht
  · exact e.writes_unwritten hs ht

end Sys2Proof.Machine
end

section
/-! PROOFS. The transfer order of a frame (20_memory.md R40 to R42), what an engine does whose transport does not answer
(R47, R48), what a step runs (R45), and APPLY against the reference echo device (R52, 95_test_vectors.md section 4). -/

namespace Sys2Proof.Machine

/-! ### A frame is its first byte followed by its second -/

theorem deserialize_eq_append (first second : Byte) : deserialize first second = first ++ second := by
  simpa [deserialize] using
    (BitVec.setWidth_append_eq_shiftLeft_setWidth_or (b := first) (b' := second) (w'' := 16)).symm

@[simp] theorem serialize_deserialize (first second : Byte) :
    serialize (deserialize first second) = (first, second) := by
  rw [deserialize_eq_append, serialize, BitVec.extractLsb'_append_eq_left, BitVec.extractLsb'_append_eq_right]

@[simp] theorem deserialize_serialize (w : Word) : deserialize (serialize w).1 (serialize w).2 = w := by
  rw [deserialize_eq_append]
  exact (BitVec.extractLsb'_append_extractLsb'_eq_extractLsb' rfl).trans BitVec.extractLsb'_eq_self

/-- The bits of the byte at place `lo` of a word, in bus order. -/
theorem byteBits_extractLsb' (w : Word) (lo : Nat) :
    byteBits (w.extractLsb' lo 8) = (List.range 8).map fun i => w.getLsbD (lo + (7 - i)) := by
  refine List.map_congr_left fun i _ => ?_
  have inByte : 7 - i < 8 := by omega
  simp [inByte]

theorem busBits_eq (w : Word) : busBits w = (List.range 16).map fun i => w.getLsbD (15 - i) := by
  have firstByte : byteBits (serialize w).1 = (List.range 8).map fun i => w.getLsbD (15 - i) := by
    refine (byteBits_extractLsb' w 8).trans (List.map_congr_left fun i hi => ?_)
    have inByte : i < 8 := List.mem_range.mp hi
    rw [show 8 + (7 - i) = 15 - i by omega]
  have secondByte : byteBits (serialize w).2 = (List.range 8).map fun i => w.getLsbD (15 - (8 + i)) := by
    refine (byteBits_extractLsb' w 0).trans (List.map_congr_left fun i _ => ?_)
    rw [show 0 + (7 - i) = 15 - (8 + i) by omega]
  have places : List.range 16 = List.range 8 ++ (List.range 8).map (8 + ·) := List.range_add (n := 8) (m := 8)
  rw [busBits, firstByte, secondByte, places, List.map_append, List.map_map]
  rfl

/-- Settles O5: each byte goes out from its highest bit, and a word is its two bytes one after the other. -/
theorem busCarriesTheHighestBitFirst : Obligations.BusCarriesTheHighestBitFirst :=
  ⟨busBits_eq, deserialize_serialize, serialize_deserialize⟩

theorem decodeFrame_of_length_ne {bytes : List Byte} (h : bytes.length ≠ 2) :
    decodeFrame bytes = .error (.notAFrame bytes.length) := by
  match bytes, h with
  | [], _ => rfl
  | [_], _ => rfl
  | _ :: _ :: _ :: _, _ => rfl

/-- Settles O11: the two bytes of a word are received as that word. -/
theorem framesAreTwoBytes : Obligations.FramesAreTwoBytes :=
  ⟨fun _ => decodeFrame_of_length_ne, fun w => congrArg decodeWord (deserialize_serialize w)⟩

/-! ### An operation waits -/

theorem unlessStopped_waiting {s : State} {call : TxCall} {b : Host.Outcome State Fault Refusal}
    (h : s.waiting = some call) : unlessStopped s b = .refused .overlappingOperation := by
  simp [unlessStopped, h]

/-- Every instruction looks for a waiting operation before anything else (20_memory.md R47). -/
theorem exec_waiting {s : State} {call : TxCall} (i : Instr) (h : s.waiting = some call) :
    exec i s = .refused .overlappingOperation := by
  cases i <;> exact unlessStopped_waiting h

theorem step_waiting {s : State} {call : TxCall} (h : s.waiting = some call) :
    step s = .fault (.transportSilent call) := by
  simp [step, h]

/-- Settles O39: `exec` and `step` both look at `waiting` first. -/
theorem waitingAdmitsNothing : Obligations.WaitingAdmitsNothing :=
  fun _ _ h => ⟨fun i => exec_waiting i h, step_waiting h⟩

/-! ### What a step runs -/

section

variable {s : State}

theorem nextIssue_word {w : Word} (h : s.wireWord = some w) :
    s.nextIssue = some (.word w, { s with wireWord := none }) := by
  simp [State.nextIssue, h]

theorem nextIssue_request {r : HostRequest} {rest : List HostRequest} (hw : s.wireWord = none)
    (h : s.requests = r :: rest) : s.nextIssue = some (.request r, { s with requests := rest }) := by
  simp [State.nextIssue, hw, h]

theorem nextIssue_nothing (hw : s.wireWord = none) (h : s.requests = []) : s.nextIssue = none := by
  simp [State.nextIssue, hw, h]

theorem step_decoded {e : Encoded} {u : State} {i : Instr} (hw : s.waiting = none) (hn : s.nextIssue = some (e, u))
    (hd : decode e = .ok i) : step s = exec i u := by
  simp [step, hw, hn, hd]

theorem step_undecodable {e : Encoded} {u : State} {err : DecodeError} (hw : s.waiting = none)
    (hn : s.nextIssue = some (e, u)) (hd : decode e = .error err) : step s = .refused (.undecodable err) := by
  simp [step, hw, hn, hd]

theorem step_nothing (hw : s.waiting = none) (hn : s.nextIssue = none) : step s = .next s := by
  simp [step, hw, hn]

end

/-- Settles O41: what is issued next, by the wire slot and the request list, and what a step makes of it. -/
theorem stepRunsTheIssuedInstruction : Obligations.StepRunsTheIssuedInstruction := by
  intro s hw
  refine ⟨?word, ?request, ?wordRefused, ?requestRefused, ?nothing⟩
  case word => exact fun w i h hd => step_decoded hw (nextIssue_word h) hd
  case request => exact fun r rest i hn h hd => step_decoded hw (nextIssue_request hn h) hd
  case wordRefused => exact fun w e h hd => step_undecodable hw (nextIssue_word h) hd
  case requestRefused => exact fun r rest e hn h hd => step_undecodable hw (nextIssue_request hn h) hd
  case nothing => exact fun hn h => step_nothing hw (nextIssue_nothing hn h)

/-! ### Where each instruction's own body runs -/

theorem resetWord_eq : resetWord = 0x8000#16 := by decide

/-- The word of a CMD_CONFIG instruction is the one its fields encode to (30_encoding.md R55). -/
theorem configWord_setWidth (hben hbcnf : HbField) :
    configWord (hben.setWidth 8) (hbcnf.setWidth 8) = packCommand ⟨0, 0, 0, hben, hbcnf, 0⟩ := by
  simp [configWord, encodeCommand]

theorem State.stage_uninit {s : State} {q : Option Staged} (r : Staged) (h : s.handle = .uninit q) :
    s.stage r = { s with handle := .uninit (some r) } := by
  simp [State.stage, h, Handle.write]

theorem State.stage_ready {s : State} (r : Staged) (h : s.hs = .ready) : s.stage r = { s with handle := .ready r } := by
  obtain ⟨q, h⟩ := State.hs_ready.mp h
  simp [State.stage, h, Handle.write]

section

variable {s : State}

theorem exec_apply_ready {en conf : Byte} (hi : s.idle) (hr : s.handle = .ready ⟨en, conf⟩) :
    exec .apply s = .next (respondWith (verifyTxn (configWord en conf) s)) := by
  rw [exec, execApply, onReady_ready hi.1 hi.2 hr]

theorem exec_init_uninit (bus : BusId) (cs : CsId) (gpioCs : Int) (hi : s.idle) (hu : s.hs = .uninit) :
    exec (.init bus cs gpioCs) s = .next (runInit (bindCfg bus cs gpioCs) s) :=
  guardOp_body hi.1 hi.2 (by simp [hu, admittedIn])

theorem exec_close_ready (hi : s.idle) (hr : s.hs = .ready) :
    exec .close s = .next (finishClose (resetTxn (s.stage clearedRegisters))) :=
  (guardOp_body hi.1 hi.2 (by simp [hr, admittedIn])).trans (if_neg (by simp [hr]))

theorem onSession_bound {b : Host.Outcome State Fault Refusal} (hi : s.idle) (hb : s.bound = true) :
    onSession s b = b :=
  (unlessStopped_body hi.1 hi.2).trans (if_pos hb)

theorem exec_cmdReset_bound (hi : s.idle) (hb : s.bound = true) : exec .cmdReset s = .next (resetTxn s).1 :=
  onSession_bound hi hb

theorem exec_cmdConfig_bound (hben hbcnf : HbField) (hi : s.idle) (hb : s.bound = true) :
    exec (.cmdConfig hben hbcnf) s = .next (verifyTxn (packCommand ⟨0, 0, 0, hben, hbcnf, 0⟩) s).1 :=
  configWord_setWidth hben hbcnf ▸ onSession_bound hi hb

end

/-! ### A call that is never answered -/

theorem runInit_resetSilent {cfg : BindCfg} {s : State} {x : Word} (h : s.drawn (.bind cfg) = some (.ok x))
    (g : (((s.popAnswer.logEvent (.bind cfg .ok)).setBound true).stage clearedRegisters).drawn (.write resetWord) =
      none) :
    runInit cfg s =
      (((s.popAnswer.logEvent (.bind cfg .ok)).setBound true).stage clearedRegisters).popAnswer.hang
        (.write resetWord) := by
  simp only [runInit_bound h, resetTxn_silent g, finishInit]

/-- Settles O38: each transaction's path on which the call is silent, the state being what the calls before it leave. -/
theorem silentCallLeavesTheOperationWaiting : Obligations.SilentCallLeavesTheOperationWaiting := by
  intro s hi
  rw [← resetWord_eq]
  refine ⟨?apply, ?init, ?close, ?cmdReset, ?cmdConfig⟩
  case apply =>
    intro en conf hr
    rw [exec_apply_ready hi hr]
    refine ⟨fun h => ?_, fun lost h g => ?_⟩
    · rw [verifyTxn_firstSilent h]; rfl
    · rw [verifyTxn_secondSilent h g]; rfl
  case init =>
    intro bus cs gpioCs hu
    rw [exec_init_uninit bus cs gpioCs hi hu]
    refine ⟨fun h => ?_, fun lost h g => ?_⟩
    · rw [runInit_bindSilent h]; rfl
    · obtain ⟨_, hq⟩ := State.hs_uninit.mp hu
      rw [runInit_resetSilent h g, State.stage_uninit]
      · rfl
      · exact hq
  case close =>
    intro hr s₁ h
    rw [exec_close_ready hi hr, resetTxn_silent (s := s.stage clearedRegisters) h, State.stage_ready _ hr]; rfl
  case cmdReset =>
    intro hb h
    rw [exec_cmdReset_bound hi hb, resetTxn_silent h]; rfl
  case cmdConfig =>
    intro hben hbcnf hb
    rw [exec_cmdConfig_bound hben hbcnf hi hb]
    refine ⟨fun h => ?_, fun lost h g => ?_⟩
    · rw [verifyTxn_firstSilent h]; rfl
    · rw [verifyTxn_secondSilent h g]; rfl

/-! ### The fields of a word that was packed from them -/

theorem extractLsb'_placeField_same {n lo : Nat} (v : BitVec n) (h : lo + n ≤ 16) :
    (placeField v lo).extractLsb' lo n = v := by
  refine BitVec.eq_of_getLsbD_eq fun i hi => ?_
  have inWord : lo + i < 16 := by omega
  simp [placeField, hi, inWord]

theorem extractLsb'_placeField_apart {n lo p k : Nat} (v : BitVec n) (h : p + k ≤ lo ∨ lo + n ≤ p) :
    (placeField v lo).extractLsb' p k = 0#k := by
  refine BitVec.eq_of_getLsbD_eq fun i hi => ?_
  rcases h with below | above
  · have low : p + i < lo := by omega
    simp [placeField, low]
  · have high : v.getLsbD (p + i - lo) = false := BitVec.getLsbD_of_ge v _ (by omega)
    simp [placeField, high]

/-- The six fields do not overlap (30_encoding.md R53). -/
@[simp] theorem cmdFields_packCommand (f : CmdFields) : cmdFields (packCommand f) = f := by
  simp (disch := omega) [cmdFields, fieldsWith, packCommand, packWith, cmdLayout, BitVec.extractLsb'_or,
    extractLsb'_placeField_same, extractLsb'_placeField_apart]

theorem cmdFields_configWord (en conf : Byte) :
    cmdFields (configWord en conf) = ⟨0, 0, 0, en.setWidth 6, conf.setWidth 6, 0⟩ :=
  cmdFields_packCommand _

/-- Command and status fields stand at the same places (decisions D1 and D2). -/
theorem statusDecode_eq_cmdFields (s : Word) :
    statusDecode s =
      { ocs := (cmdFields s).srr, psf := (cmdFields s).hbsel, uld := (cmdFields s).uldsc
        hbst := (cmdFields s).hben, hbcr := (cmdFields s).hbcnf, tw := (cmdFields s).ovlo } := rfl

theorem statusDecode_configWord (en conf : Byte) :
    statusDecode (configWord en conf) = ⟨0, 0, 0, en.setWidth 6, conf.setWidth 6, 0⟩ := by
  rw [statusDecode_eq_cmdFields, cmdFields_configWord]

/-! ### The echo device -/

/-- With no fault latched a CMD_CONFIG word comes back as it was sent, its fields' places being those of the status. -/
theorem echoStatus_configWord (en conf : Byte) :
    echoStatus (cmdFields (configWord en conf)) noFaults = configWord en conf := by
  rw [cmdFields_configWord]; rfl

theorem echoFrame_configWord (en conf : Byte) (prev : Word) :
    echoFrame noFaults (configWord en conf) ⟨prev, noFaults⟩ = (prev, ⟨configWord en conf, noFaults⟩) := by
  have noStrobe : (cmdFields (configWord en conf)).srr ≠ 1 := by simp [cmdFields_configWord]
  have latched : joinFaults noFaults noFaults = noFaults := rfl
  simp only [echoFrame, if_neg noStrobe, latched, echoStatus_configWord]

/-- The device's two replies to APPLY: what it held before, then the word itself. -/
theorem echoScript_apply (en conf : Byte) (prev : Word) :
    echoScript [(.write (configWord en conf), noFaults), (.writeRead (configWord en conf), noFaults)]
      ⟨prev, noFaults⟩ =
      [.reply (.ok prev), .reply (.ok (configWord en conf))] := by
  simp [echoScript, echoAnswer, echoFrame_configWord]

/-- The echo of a CMD_CONFIG word: its `hbcr` is the `hbcnf` sent, and no fault bit stands
(70_reset_and_hazards.md R135). -/
theorem classify_configWord_self (en conf : Byte) : classify (configWord en conf) (configWord en conf) = .success := by
  simp [classify, statusDecode_configWord, cmdFields_configWord]

theorem State.drawn_reply {s : State} {r : Reply} {rest : List Answer} (call : TxCall)
    (h : s.answers = .reply r :: rest) : s.drawn call = some r := by
  simp [State.drawn, h]

/-- Settles O56: the second reply is the word sent, which is its own verification. -/
theorem applyAgainstTheEchoDeviceSucceeds : Obligations.ApplyAgainstTheEchoDeviceSucceeds := by
  intro s en conf prev rest hi hr w script
  have answers : s.answers = .reply (.ok prev) :: .reply (.ok w) :: rest := by
    rw [script, echoScript_apply]; rfl
  have first : s.drawn (.write w) = some (.ok prev) := State.drawn_reply _ answers
  have second : (s.popAnswer.logEvent (.write w .ok)).drawn (.writeRead w) = some (.ok w) :=
    State.drawn_reply _ (by simp only [State.logEvent_answers, State.popAnswer_answers, answers]; rfl)
  rw [exec_apply_ready hi hr, verifyTxn_replied first second, classify_configWord_self]
  simp [respondWith, State.respond, State.logEvent, State.popAnswer, answers]

end Sys2Proof.Machine
end

section
/-! PROOFS. The encoder and the decoder as inverses (30_encoding.md R55, R59, R67) and the rows of the opcode table. -/

namespace Sys2Proof.Machine

/-! ### Selectors -/

@[simp] theorem HostOp.ofCode_code (op : HostOp) : HostOp.ofCode op.code = op := by cases op <;> rfl

@[simp] theorem HostOp.code_ofCode : ∀ op : BitVec 2, (HostOp.ofCode op).code = op := by decide

/-! ### A command word is packed from its own fields -/

theorem getLsbD_placeField_extractLsb' (w : Word) (lo n : Nat) {j : Nat} (hj : j < 16) :
    (placeField (w.extractLsb' lo n) lo).getLsbD j = (decide (lo ≤ j ∧ j < lo + n) && w.getLsbD j) := by
  by_cases below : j < lo
  · have outside : ¬ (lo ≤ j ∧ j < lo + n) := by omega
    simp [placeField, below, outside]
  · have place : lo + (j - lo) = j := by omega
    have inside : j - lo < n ↔ lo ≤ j ∧ j < lo + n := by omega
    simp [placeField, below, place, hj, inside]

/-- The six fields cover the word (30_encoding.md R53). -/
@[simp] theorem packCommand_cmdFields (w : Word) : packCommand (cmdFields w) = w := by
  refine BitVec.eq_of_getLsbD_eq fun j hj => ?_
  have covered : (15 ≤ j ∧ j < 15 + 1 ∨ 14 ≤ j ∧ j < 14 + 1 ∨ 13 ≤ j ∧ j < 13 + 1 ∨ 7 ≤ j ∧ j < 7 + 6 ∨
      1 ≤ j ∧ j < 1 + 6 ∨ 0 ≤ j ∧ j < 0 + 1) := by omega
  simp only [packCommand, packWith, cmdFields, fieldsWith, cmdLayout, BitVec.getLsbD_or,
    getLsbD_placeField_extractLsb' w _ _ hj, ← Bool.and_or_distrib_right, ← Bool.decide_or, or_assoc, covered,
    decide_true, Bool.true_and]

/-! ### Decoding what was encoded -/

theorem decode_encode (i : Instr) : decode (encode i) = .ok i := by
  cases i with
  | cmdReset => simp [encode, decode, decodeWord]
  | cmdConfig hben hbcnf => simp [encode, decode, decodeWord]
  | _ => rfl

/-- Settles O6: a request is read by its selector, a word by the fields it was packed from. -/
theorem decodeInvertsEncode : Obligations.DecodeInvertsEncode := decode_encode

/-! ### Encoding what was decoded -/

theorem encode_of_decodeRequest {r : HostRequest} {i : Instr} (h : decodeRequest r = .ok i) : encode i = .request r := by
  obtain ⟨op, args⟩ := r
  obtain ⟨o, rfl⟩ : ∃ o : HostOp, o.code = op := ⟨_, HostOp.code_ofCode op⟩
  simp only [decodeRequest, HostOp.ofCode_code] at h
  split at h
  · cases h; rfl
  · cases h; rfl
  · cases h; rfl
  · cases h; rfl
  · cases h

theorem encode_of_decodeWord {w : Word} {i : Instr} (h : decodeWord w = .ok i) : encode i = .word w := by
  have packed := packCommand_cmdFields w
  unfold decodeWord at h
  generalize cmdFields w = f at packed h
  obtain ⟨srr, hbsel, uldsc, hben, hbcnf, ovlo⟩ := f
  dsimp only at h
  split at h
  case isTrue cleared =>
    obtain ⟨rfl, rfl, rfl⟩ := cleared
    split at h
    case isTrue noStrobe => subst noStrobe; cases h; exact congrArg Encoded.word packed
    case isFalse strobe =>
      have isSet : srr = 1 := (BitVec.eq_zero_or_eq_one srr).resolve_left strobe
      split at h
      case isTrue alone => obtain ⟨rfl, rfl⟩ := alone; subst isSet; cases h; exact congrArg Encoded.word packed
      case isFalse => cases h
  case isFalse => cases h

theorem encode_of_decode {e : Encoded} {i : Instr} (h : decode e = .ok i) : encode i = e := by
  cases e with
  | request r => exact encode_of_decodeRequest h
  | word w => exact encode_of_decodeWord h

/-- Settles O7: a selector with its argument fields, or a word's six fields, are the whole raw form. -/
theorem encodeInvertsDecode : Obligations.EncodeInvertsDecode := fun _ _ => encode_of_decode

theorem decode_eq_ok {e : Encoded} {i : Instr} : decode e = .ok i ↔ encode i = e :=
  ⟨encode_of_decode, fun h => h ▸ decode_encode i⟩

/-! ### The raw forms that are encodings -/

theorem commandWordLegal_iff {w : Word} : commandWordLegal w = true ↔ w = 0x8000#16 ∨ w &&& 0xE001#16 = 0#16 := by
  simp [commandWordLegal]

theorem encode_wellFormed (i : Instr) : (encode i).wellFormed = true := by
  cases i with
  | cmdReset => exact resetWord_legal
  | cmdConfig hben hbcnf =>
    have legal := configWord_legal (hben.setWidth 8) (hbcnf.setWidth 8)
    rwa [configWord_setWidth] at legal
  | _ => rfl

theorem exists_encode_request {r : HostRequest} (h : r.wellFormed = true) : ∃ i, encode i = .request r := by
  obtain ⟨op, args⟩ := r
  cases args with
  | session bus cs gpioCs =>
    have selector : op = 0 := beq_iff_eq.mp h
    exact ⟨.init bus cs gpioCs, by rw [selector]; rfl⟩
  | output axis direction =>
    have selector : op = 1 := beq_iff_eq.mp h
    exact ⟨.set axis direction, by rw [selector]; rfl⟩
  | none =>
    have selector : op = 2 ∨ op = 3 := by simpa [HostRequest.wellFormed, HostArgs.fit] using h
    rcases selector with rfl | rfl
    · exact ⟨.apply, rfl⟩
    · exact ⟨.close, rfl⟩

/-- A field that a mask covers is clear where the masked word is. -/
theorem extractLsb'_eq_zero_of_masked {w m : Word} {lo n : Nat} (h : w &&& m = 0#16)
    (covered : m.extractLsb' lo n = BitVec.allOnes n) : w.extractLsb' lo n = 0#n := by
  have field := congrArg (·.extractLsb' lo n) h
  simpa [BitVec.extractLsb'_and, covered] using field

theorem exists_encode_word {w : Word} (h : commandWordLegal w = true) : ∃ i, encode i = .word w := by
  rcases commandWordLegal_iff.mp h with rfl | masked
  · exact ⟨.cmdReset, by decide⟩
  · refine ⟨.cmdConfig (cmdFields w).hben (cmdFields w).hbcnf, congrArg Encoded.word ?_⟩
    have cleared (lo : Nat) (covered : (0xE001#16).extractLsb' lo 1 = BitVec.allOnes 1) : w.extractLsb' lo 1 = 0#1 :=
      extractLsb'_eq_zero_of_masked masked covered
    have fields : cmdFields w = ⟨0, 0, 0, (cmdFields w).hben, (cmdFields w).hbcnf, 0⟩ :=
      (CmdFields.mk.injEq ..).mpr ⟨cleared 15 (by decide), cleared 14 (by decide), cleared 13 (by decide), rfl, rfl,
        cleared 0 (by decide)⟩
    rw [← fields, packCommand_cmdFields]

theorem exists_encode_iff {e : Encoded} : (∃ i, encode i = e) ↔ e.wellFormed = true := by
  refine ⟨fun ⟨i, h⟩ => h ▸ encode_wellFormed i, fun h => ?_⟩
  cases e with
  | request r => exact exists_encode_request h
  | word w => exact exists_encode_word h

/-- Settles O8: what decodes is an encoding, and the encodings are the two shapes. -/
theorem decodesExactlyTheTwoShapes : Obligations.DecodesExactlyTheTwoShapes :=
  fun _ => (exists_congr fun _ => decode_eq_ok).trans exists_encode_iff

/-! ### The rows of the opcode table -/

/-- The six rows (opcode_table.json). -/
def tableRows : List TableRow :=
  [⟨8, 0x3, 0x0⟩, ⟨8, 0x3, 0x1⟩, ⟨8, 0x3, 0x2⟩, ⟨8, 0x3, 0x3⟩, ⟨16, 0xFFFF, 0x8000⟩, ⟨16, 0xE001, 0x0000⟩]

theorem row_mem_tableRows (i : Instr) : i.row ∈ tableRows := by
  cases i <;> simp [Instr.row, tableRows]

/-- Two rows of one width whose values agree under each other's masks are the same. -/
theorem tableRows_disjoint : ∀ r ∈ tableRows, ∀ q ∈ tableRows, r.nbits = q.nbits →
    r.value &&& q.mask = q.value &&& r.mask → r = q := by
  decide

theorem encode_meets_row (i : Instr) : (encode i).tableBits &&& i.row.mask = i.row.value := by
  cases i with
  | init bus cs gpioCs => exact (Laws.TableRow.init bus cs gpioCs).1
  | set axis direction => exact (Laws.TableRow.set axis direction).1
  | apply => exact Laws.TableRow.apply.1
  | close => exact Laws.TableRow.close.1
  | cmdReset => exact Laws.TableRow.cmdReset.1
  | cmdConfig hben hbcnf => exact (Laws.TableRow.cmdConfig hben hbcnf).1

/-- Settles O10: bits that meet two rows make the rows' values agree under each other's masks. -/
theorem noEncodingMeetsAnotherRow : Obligations.NoEncodingMeetsAnotherRow := by
  intro i j width meets
  refine tableRows_disjoint _ (row_mem_tableRows i) _ (row_mem_tableRows j) width ?_
  rw [← meets, ← encode_meets_row i, Nat.and_assoc, Nat.and_comm i.row.mask, Nat.and_assoc]

end Sys2Proof.Machine
end

section
/-! PROOFS. What the host operations send and answer (30_encoding.md R55, R61), and the requests of the host-program text
(R65). -/

namespace Sys2Proof.Machine

/-! ### A request decodes to a host operation -/

theorem hostOpOf_of_encode {i : Instr} {r : HostRequest} (h : encode i = .request r) : ∃ op, hostOpOf i = some op := by
  cases i with
  | cmdReset => cases h
  | cmdConfig => cases h
  | _ => exact ⟨_, rfl⟩

theorem decodeRequest_hostOpOf {r : HostRequest} {i : Instr} (h : decodeRequest r = .ok i) :
    ∃ op, hostOpOf i = some op :=
  hostOpOf_of_encode (encode_of_decodeRequest h)

/-! ### The frames of a host operation -/

/-- What `State.HostInv` says of one frame's word (30_encoding.md R55). -/
def HostWord (w : Word) : Prop :=
  w = 0x8000#16 ∨ (w &&& 0xE001#16 = 0#16 ∧ configPairsLegal w)

theorem hostWord_resetWord : HostWord resetWord := .inl resetWord_eq

/-- A pair of a six-bit field is the pair of the register it was cut from. -/
theorem extractLsb'_setWidth_pair (r : Byte) (k : Fin 3) :
    (r.setWidth 6).extractLsb' (2 * k.val) 2 = getPair r ⟨k.val, by omega⟩ := by
  refine BitVec.eq_of_getLsbD_eq fun i hi => ?_
  have inField : 2 * k.val + i < 6 := by omega
  simp [getPair, hi, inField]

/-- Legal staged registers are sent as a legal CMD_CONFIG (41_command_encoder.md R81). -/
theorem hostWord_configWord {en conf : Byte} (h : pairsLegal en conf) : HostWord (configWord en conf) := by
  refine (commandWordLegal_iff.mp (configWord_legal en conf)).imp_right fun masked => ⟨masked, fun k => ?_⟩
  simpa only [cmdFields_configWord, extractLsb'_setWidth_pair] using h ⟨k.val, by omega⟩

theorem forall_framesSent_snoc {P : Word → Prop} {tr : List TxEvent} {e : TxEvent} :
    (∀ w ∈ framesSent (tr ++ [e]), P w) ↔ (∀ w ∈ framesSent tr, P w) ∧ ∀ w, sentWord e = some w → P w := by
  simp [framesSent, List.filterMap_append, or_imp, forall_and]

/-- Every frame of a trace carries a host word. -/
def HostTrace (tr : List TxEvent) : Prop := ∀ w ∈ framesSent tr, HostWord w

section

variable {tr : List TxEvent} {s t : State} {i : Instr} {op : HostOp}

theorem HostTrace.frame {e : TxEvent} {w : Word} (h : HostTrace tr) (he : sentWord e = some w) (hw : HostWord w) :
    HostTrace (tr ++ [e]) :=
  forall_framesSent_snoc.mpr ⟨h, fun v hv => by cases he.symm.trans hv; exact hw⟩

theorem HostTrace.noFrame {e : TxEvent} (h : HostTrace tr) (he : sentWord e = none) : HostTrace (tr ++ [e]) :=
  forall_framesSent_snoc.mpr ⟨h, fun v hv => by cases he.symm.trans hv⟩

theorem Sent.hostTrace {w : Word} {p : State × Option OutcomeCode} (hp : Sent w s p) (h : HostTrace s.trace)
    (hw : HostWord w) : HostTrace p.1.trace := by
  cases hp with
  | firstSilent => exact h
  | firstErr => exact h.frame rfl hw
  | secondSilent => exact h.frame rfl hw
  | secondErr => exact (h.frame rfl hw).frame rfl hw
  | replied r => exact (h.frame rfl hw).frame rfl hw

theorem respondWith_trace (p : State × Option OutcomeCode) : (respondWith p).trace = p.1.trace := by
  obtain ⟨t, _ | o⟩ := p <;> rfl

/-- A host operation on legal staged registers sends host words only. -/
theorem Effect.hostTrace (e : Effect s i t) (ho : hostOpOf i = some op) (h : HostTrace s.trace)
    (staged : ∀ r, s.handle = .ready r → pairsLegal r.outEn r.outConf) : HostTrace t.trace := by
  cases e with
  | invalid => exact h
  | staged => exact h
  | applied r p hr hp =>
    rw [respondWith_trace]
    exact hp.hostTrace h (hostWord_configWord (staged r hr))
  | bindSilent => exact h
  | bindErr => exact h.noFrame rfl
  | resetSilent => exact h.noFrame rfl
  | resetOk => exact (h.noFrame rfl).frame rfl hostWord_resetWord
  | resetErr => exact ((h.noFrame rfl).frame rfl hostWord_resetWord).noFrame rfl
  | closeUninit => exact h
  | closeSilent => exact h
  | closeReady => exact (h.frame rfl hostWord_resetWord).noFrame rfl
  | strobeSilent => cases ho
  | strobe => cases ho
  | configured => cases ho

theorem exec_hostTrace (hx : exec i s = .next t) (ho : hostOpOf i = some op) (inv : s.Inv) (h : HostTrace s.trace) :
    HostTrace t.trace := by
  obtain ⟨-, ⟨-, rfl⟩ | ⟨-, op, -, -, rfl⟩ | ⟨-, -, e⟩⟩ := exec_next hx
  · exact h
  · exact h
  · exact e.hostTrace ho h inv.readyStaged

/-! ### The wire slot is an input -/

theorem Sent.wireWord {w : Word} {p : State × Option OutcomeCode} (hp : Sent w s p) : p.1.wireWord = s.wireWord := by
  cases hp <;> rfl

theorem respondWith_wireWord (p : State × Option OutcomeCode) : (respondWith p).wireWord = p.1.wireWord := by
  obtain ⟨t, _ | o⟩ := p <;> rfl

theorem Effect.wireWord (e : Effect s i t) : t.wireWord = s.wireWord := by
  cases e with
  | applied _ _ _ hp => exact (respondWith_wireWord _).trans hp.wireWord
  | configured _ _ _ _ hp => exact hp.wireWord
  | _ => rfl

theorem exec_wireWord (hx : exec i s = .next t) : t.wireWord = s.wireWord := by
  obtain ⟨-, ⟨-, rfl⟩ | ⟨-, op, -, -, rfl⟩ | ⟨-, -, e⟩⟩ := exec_next hx
  · rfl
  · rfl
  · exact e.wireWord

/-- With the wire slot empty a step changes nothing, or runs a host operation on the same state with one request less. -/
theorem step_host_cases (hs : step s = .next t) (hw : s.wireWord = none) :
    t = s ∨ ∃ i op rest, hostOpOf i = some op ∧ exec i { s with requests := rest } = .next t := by
  obtain ⟨-, ⟨-, rfl⟩ | ⟨e, u, i, hn, hd, hx⟩⟩ := step_next hs
  · exact .inl rfl
  · obtain ⟨w, placed, -, -⟩ | ⟨r, rest, -, -, rfl, rfl⟩ := nextIssue_cases hn
    · cases hw.symm.trans placed
    · obtain ⟨op, ho⟩ := decodeRequest_hostOpOf hd
      exact .inr ⟨i, op, rest, ho, hx⟩

end

/-- Settles O45: a step of such a run is a host operation, whose frames are CMD_RESET or the CMD_CONFIG of legal staged
registers. -/
theorem stepKeepsTheHostInvariant : Obligations.StepKeepsTheHostInvariant := by
  intro s t h hs
  obtain rfl | ⟨i, op, rest, ho, hx⟩ := step_host_cases hs h.noWireWord
  · exact h
  · exact {
      inv := stepKeepsTheInvariant s t h.inv hs
      noWireWord := (exec_wireWord hx).trans h.noWireWord
      wordPairs := exec_hostTrace hx ho (h.inv.with_inputs _ _) h.wordPairs }

/-! ### The response of a host operation -/

/-- How an operation that records no fault ends: with one more response, or waiting with none. -/
def Answered (s t : State) : Prop :=
  (t.waiting = none ∧ ∃ r, t.responses = s.responses ++ [r]) ∨ (t.waiting ≠ none ∧ t.responses = s.responses)

section

variable {s t : State} {i : Instr} {op : HostOp}

theorem Sent.answered {w : Word} {p : State × Option OutcomeCode} (hp : Sent w s p) (hw : s.waiting = none) :
    Answered s (respondWith p) := by
  cases hp with
  | firstSilent => exact .inr ⟨nofun, rfl⟩
  | firstErr => exact .inl ⟨hw, _, rfl⟩
  | secondSilent => exact .inr ⟨nofun, rfl⟩
  | secondErr => exact .inl ⟨hw, _, rfl⟩
  | replied r => exact .inl ⟨hw, _, rfl⟩

theorem Sent.fault {w : Word} {p : State × Option OutcomeCode} (hp : Sent w s p) : p.1.fault = s.fault := by
  cases hp <;> rfl

theorem respondWith_fault (p : State × Option OutcomeCode) : (respondWith p).fault = p.1.fault := by
  obtain ⟨t, _ | o⟩ := p <;> rfl

theorem Effect.answered (e : Effect s i t) (ho : hostOpOf i = some op) (hw : s.waiting = none) : Answered s t := by
  cases e with
  | invalid => exact .inl ⟨hw, _, rfl⟩
  | staged => exact .inl ⟨hw, _, rfl⟩
  | applied _ _ _ hp => exact hp.answered hw
  | bindSilent => exact .inr ⟨nofun, rfl⟩
  | bindErr => exact .inl ⟨hw, _, rfl⟩
  | resetSilent => exact .inr ⟨nofun, rfl⟩
  | resetOk => exact .inl ⟨hw, _, rfl⟩
  | resetErr => exact .inl ⟨hw, _, rfl⟩
  | closeUninit => exact .inl ⟨hw, _, rfl⟩
  | closeSilent => exact .inr ⟨nofun, rfl⟩
  | closeReady => exact .inl ⟨hw, _, rfl⟩
  | strobeSilent => cases ho
  | strobe => cases ho
  | configured => cases ho

/-- No path of an admitted instruction records a fault. -/
theorem Effect.fault (e : Effect s i t) : t.fault = s.fault := by
  cases e with
  | applied _ _ _ hp => exact (respondWith_fault _).trans hp.fault
  | configured _ _ _ _ hp => exact hp.fault
  | _ => rfl

end

/-- Settles O49: an admitted operation answers or waits, any other raises the mark. -/
theorem oneResponsePerOperation : Obligations.OneResponsePerOperation := by
  intro s t i op ho ⟨hw, hf⟩ hx
  obtain ⟨-, ⟨faulted, -⟩ | ⟨-, op, -, -, rfl⟩ | ⟨-, -, e⟩⟩ := exec_next hx
  · exact absurd hf faulted
  · exact .inr (.inl ⟨nofun, hw, rfl⟩)
  · have noFault : t.fault = none := e.fault.trans hf
    rcases e.answered ho hw with ⟨done, responded⟩ | waits
    · exact .inl ⟨noFault, done, responded⟩
    · exact .inr (.inr ⟨noFault, waits⟩)

/-! ### Assembled lines -/

theorem operandArgs_fit {op : HostOp} {operands : List Int} {args : HostArgs} (h : operandArgs op operands = some args) :
    args.fit op.code = true := by
  unfold operandArgs at h
  split at h
  · cases h; rfl
  · cases h; rfl
  · cases h; rfl
  · cases h; rfl
  · cases h

/-- A line's request is a mnemonic's selector with the argument fields of its operands. -/
theorem assembleLine_request {line : List Char} {r : HostRequest} (h : assembleLine line = .ok (some r)) :
    ∃ op operands args, operandArgs op operands = some args ∧ r = ⟨op.code, args⟩ := by
  unfold assembleLine at h
  dsimp only at h
  split at h
  case isTrue blank => cases h
  case isFalse =>
    split at h
    case h_1 unknown => cases h
    case h_2 op mnemonic =>
      split at h
      case h_1 bad => cases h
      case h_2 operands read =>
        split at h
        case h_1 args fields => cases h; exact ⟨op, operands, args, fields, rfl⟩
        case h_2 wrongCount => cases h

theorem assembleLine_wellFormed {line : List Char} {r : HostRequest} (h : assembleLine line = .ok (some r)) :
    r.wellFormed = true := by
  obtain ⟨op, operands, args, fields, rfl⟩ := assembleLine_request h
  exact operandArgs_fit fields

theorem beforeComment_append_comment (line comment : List Char) :
    beforeComment (line ++ ';' :: comment) = beforeComment line := by
  induction line with
  | nil => rfl
  | cons c cs ih =>
    unfold beforeComment at ih ⊢
    rw [List.cons_append, List.takeWhile_cons, List.takeWhile_cons, ih]

theorem assembleLine_append_comment (line comment : List Char) :
    assembleLine (line ++ ';' :: comment) = assembleLine line := by
  simp only [assembleLine, beforeComment_append_comment]

/-- Settles O58: each mnemonic's operands fit its selector, and a line is read up to its first semicolon. -/
theorem assembledLinesAreHostRequests : Obligations.AssembledLinesAreHostRequests := by
  refine ⟨fun line r h => ?_, assembleLine_append_comment⟩
  have fit := assembleLine_wellFormed h
  obtain ⟨i, encoded⟩ := exists_encode_request fit
  obtain ⟨op, ho⟩ := hostOpOf_of_encode encoded
  exact ⟨fit, i, op, decode_eq_ok.mpr encoded, ho⟩

end Sys2Proof.Machine
end

section
/-! PROOFS. SET_OUTPUT (40_device_state.md): its arguments (R71, R76), its meaning on a READY handle (R70, R72), how
staged settings merge until an APPLY (R74), and what of them the command word carries (R71, R75). -/

namespace Sys2Proof.Machine

/-! ### The arguments -/

theorem parseAxis_val (a : Axis) : parseAxis (a.val : Int) = some a :=
  dif_pos (by omega)

theorem parseAxis_eq_some {axis : Int} {a : Axis} (h : parseAxis axis = some a) : axis = (a.val : Int) := by
  unfold parseAxis at h
  split at h
  case isTrue inRange => cases h; exact (Int.toNat_of_nonneg inRange.1).symm
  case isFalse => cases h

theorem parseAxis_outOfRange {axis : Int} (h : axis < 0 ∨ 3 < axis) : parseAxis axis = none :=
  dif_neg (by omega)

/-- The argument that stands for a direction (40_device_state.md R71). -/
def Direction.argument : Direction → Int
  | .plus => 1
  | .minus => -1
  | .zero => 0

@[simp] theorem parseDirection_argument (dir : Direction) : parseDirection dir.argument = some dir := by
  cases dir <;> rfl

theorem exists_argument {d : Int} (low : -1 ≤ d) (high : d ≤ 1) : ∃ dir : Direction, dir.argument = d := by
  obtain rfl | rfl | rfl : d = -1 ∨ d = 0 ∨ d = 1 := by omega
  · exact ⟨.minus, rfl⟩
  · exact ⟨.zero, rfl⟩
  · exact ⟨.plus, rfl⟩

theorem parseDirection_outOfRange {d : Int} (h : d < -1 ∨ 1 < d) : parseDirection d = none := by
  have notPlus : d ≠ 1 := by omega
  have notMinus : d ≠ -1 := by omega
  have notZero : d ≠ 0 := by omega
  simp only [parseDirection, if_neg notPlus, if_neg notMinus, if_neg notZero]

theorem parse_outOfRange {axis d : Int} (h : axis < 0 ∨ 3 < axis ∨ d < -1 ∨ 1 < d) :
    parseAxis axis = none ∨ parseDirection d = none := by
  rcases h with h | h | h
  · exact .inl (parseAxis_outOfRange (.inl h))
  · exact .inl (parseAxis_outOfRange (.inr h))
  · exact .inr (parseDirection_outOfRange h)

theorem directionPair_eq (dir : Direction) :
    directionPair dir = (if dir.argument = 1 then 0b01#2 else if dir.argument = -1 then 0b10#2 else 0b00#2) := by
  cases dir <;> rfl

/-! ### The registers after a SET_OUTPUT -/

/-- Writing a pair hides what was written to it before. -/
theorem setPair_setPair_same (x : Byte) (a : Axis) (v w : BitVec 2) : setPair (setPair x a v) a w = setPair x a w := by
  refine eq_of_getPair_eq fun c => ?_
  by_cases h : c = a
  · simp [h]
  · simp [h]

theorem setPair_comm (x : Byte) {a b : Axis} (v w : BitVec 2) (hab : a ≠ b) :
    setPair (setPair x a v) b w = setPair (setPair x b w) a v := by
  refine eq_of_getPair_eq fun c => ?_
  by_cases ha : c = a
  · subst ha; simp [hab]
  · by_cases hb : c = b
    · subst hb; simp [ha]
    · simp [ha, hb]

section

variable (a b : Axis) (d e : Direction) (r : Staged)

@[simp] theorem getPair_setOutput_outEn_same : getPair (setOutput a d r).outEn a = 0b11 := getPair_setPair_same ..

@[simp] theorem getPair_setOutput_outConf_same : getPair (setOutput a d r).outConf a = directionPair d :=
  getPair_setPair_same ..

variable {a b}

theorem getPair_setOutput_other (h : b ≠ a) :
    getPair (setOutput a d r).outEn b = getPair r.outEn b ∧
      getPair (setOutput a d r).outConf b = getPair r.outConf b :=
  ⟨getPair_setPair_other _ _ h, getPair_setPair_other _ _ h⟩

theorem setOutput_setOutput_same : setOutput a e (setOutput a d r) = setOutput a e r := by
  simp only [setOutput, setPair_setPair_same]

theorem setOutput_comm (hab : a ≠ b) : setOutput b e (setOutput a d r) = setOutput a d (setOutput b e r) := by
  simp only [setOutput, setPair_comm _ _ _ hab]

end

/-! ### The registers of a handle -/

theorem State.outputs_eq_of_handle {s t : State} (h : s.handle = t.handle) :
    s.outEn = t.outEn ∧ s.outConf = t.outConf := by
  simp only [State.outEn, State.outConf, h, and_self]

theorem State.ready_staged_eq {s : State} {r : Staged} {en conf : Byte} (hr : s.handle = .ready r)
    (hen : s.outEn = some en) (hconf : s.outConf = some conf) : r = ⟨en, conf⟩ := by
  cases (State.ready_outEn hr).symm.trans hen
  cases (State.ready_outConf hr).symm.trans hconf
  rfl

/-! ### The instruction -/

section

variable {s t : State} {axis d : Int} {r : Staged}

theorem exec_set_notReady (hi : s.idle) (hr : s.hs ≠ .ready) :
    exec (.set axis d) s = .next (s.raise (.notReady .setOutput s.hs)) :=
  onReady_notReady hi.1 hi.2 hr

theorem exec_set_invalid (hi : s.idle) (hr : s.hs = .ready) (h : parseAxis axis = none ∨ parseDirection d = none) :
    exec (.set axis d) s = .next (s.respond (.outcome .invalidArgument)) := by
  obtain ⟨r, hr⟩ := State.hs_ready.mp hr
  rw [exec, execSet, onReady_ready hi.1 hi.2 hr]
  rcases h with h | h
  · simp [h]
  · cases parseAxis axis <;> simp [h]

theorem exec_set_staged (a : Axis) (dir : Direction) (hi : s.idle) (hr : s.handle = .ready r) :
    exec (.set (a.val : Int) dir.argument) s =
      .next { s with handle := .ready (setOutput a dir r), responses := s.responses ++ [.outcome .success] } := by
  rw [exec, execSet, onReady_ready hi.1 hi.2 hr, parseAxis_val, parseDirection_argument]
  simp only [State.stage_ready _ (State.ready_hs hr), State.respond]

/-- The part of `exec_set_staged` that the next operation reads. -/
theorem exec_set_handle {a : Axis} {dir : Direction} (hi : s.idle) (hr : s.handle = .ready r)
    (hx : exec (.set (a.val : Int) dir.argument) s = .next t) : t.idle ∧ t.handle = .ready (setOutput a dir r) := by
  cases (exec_set_staged a dir hi hr).symm.trans hx
  exact ⟨hi, rfl⟩

/-- Everything SET_OUTPUT can do to the trace, the wait and the registers, from any state. -/
theorem exec_set_next (hx : exec (.set axis d) s = .next t) :
    t.trace = s.trace ∧ t.waiting = none ∧
    (t.handle = s.handle ∨
     ∃ (a : Axis) (dir : Direction) (r : Staged), axis = (a.val : Int) ∧ s.handle = .ready r ∧
       t.handle = .ready (setOutput a dir r)) := by
  obtain ⟨hw, ⟨-, rfl⟩ | ⟨-, op, -, -, rfl⟩ | ⟨-, -, e⟩⟩ := exec_next hx
  · exact ⟨rfl, hw, .inl rfl⟩
  · exact ⟨rfl, hw, .inl rfl⟩
  · cases e with
    | invalid => exact ⟨rfl, hw, .inl rfl⟩
    | staged _ _ a dir r hr ha hd =>
      exact ⟨rfl, hw, .inr ⟨a, dir, r, parseAxis_eq_some ha, hr, by simp [hr, Handle.write]⟩⟩

end

/-- Settles O17: the guards in their order, the arguments' range, and the pairs of the registers written. -/
theorem setOutputFollowsItsRule : Obligations.SetOutputFollowsItsRule := by
  intro s axis d hw
  refine ⟨?faulted, ?notReady, ?invalid, ?staged⟩
  case faulted => exact fun m => exec_faulted _ hw
  case notReady => exact fun hf => exec_set_notReady ⟨hw, hf⟩
  case invalid => exact fun hf hr outside => exec_set_invalid ⟨hw, hf⟩ hr (parse_outOfRange outside)
  case staged =>
    rintro a en conf hf hr rfl low high
    obtain ⟨dir, rfl⟩ := exists_argument low high
    exact ⟨_, _, exec_set_staged a dir ⟨hw, hf⟩ hr, getPair_setOutput_outEn_same a dir _,
      (getPair_setOutput_outConf_same a dir _).trans (directionPair_eq dir), fun b => getPair_setOutput_other dir _⟩

/-- Settles O18: the registers stay as they are, or the pair written is the one the axis names. -/
theorem setOutputKeepsTheOtherPairs : Obligations.SetOutputKeepsTheOtherPairs := by
  intro s t axis d en conf hen hconf hx
  obtain ⟨-, -, same | ⟨a, dir, r, rfl, hr, ht⟩⟩ := exec_set_next hx
  · obtain ⟨sameEn, sameConf⟩ := State.outputs_eq_of_handle same
    exact ⟨en, conf, sameEn.trans hen, sameConf.trans hconf, fun _ _ => ⟨rfl, rfl⟩⟩
  · cases State.ready_staged_eq hr hen hconf
    exact ⟨_, _, State.ready_outEn ht, State.ready_outConf ht,
      fun b hb => getPair_setOutput_other dir _ fun named => hb (by rw [named])⟩

/-! ### Staged settings until an APPLY -/

/-- What APPLY_TXN appends are frames of its one word (43_transaction_sequencer.md R94). -/
theorem Sent.events {w : Word} {s : State} {p : State × Option OutcomeCode} (hp : Sent w s p) :
    ∃ events, p.1.trace = s.trace ++ events ∧ ∀ v ∈ framesSent events, v = w := by
  cases hp with
  | firstSilent => exact ⟨[], by simp, by simp [framesSent]⟩
  | firstErr => exact ⟨[.write w .err], rfl, by simp [framesSent, sentWord]⟩
  | secondSilent => exact ⟨[.write w .ok], rfl, by simp [framesSent, sentWord]⟩
  | secondErr => exact ⟨[.write w .ok, .writeRead w .err], by simp, by simp [framesSent, sentWord]⟩
  | replied r => exact ⟨[.write w .ok, .writeRead w (.ok r)], by simp, by simp [framesSent, sentWord]⟩

/-- APPLY sends no word but that of the staged registers (43_transaction_sequencer.md R98). -/
theorem exec_apply_events {s t : State} {en conf : Byte} (hen : s.outEn = some en) (hconf : s.outConf = some conf)
    (hx : exec .apply s = .next t) :
    ∃ events, t.trace = s.trace ++ events ∧ ∀ w ∈ framesSent events, w = configWord en conf := by
  obtain ⟨-, ⟨-, rfl⟩ | ⟨-, op, -, -, rfl⟩ | ⟨-, -, e⟩⟩ := exec_next hx
  · exact ⟨[], by simp, by simp [framesSent]⟩
  · exact ⟨[], by simp, by simp [framesSent]⟩
  · cases e with
    | applied r p hr hp =>
      cases State.ready_staged_eq hr hen hconf
      rw [respondWith_trace]
      exact hp.events

/-- Settles O20: a pair written again hides what it held, different pairs do not meet, and APPLY reads the registers. -/
theorem stagingMergesPerAxis : Obligations.StagingMergesPerAxis := by
  refine ⟨?silent, ?lastWins, ?commute, ?applied⟩
  case silent =>
    intro s t axis d hx
    obtain ⟨trace, waiting, -⟩ := exec_set_next hx
    exact ⟨trace, waiting⟩
  case lastWins =>
    intro s t u v a d₁ d₂ hi hs low₁ high₁ low₂ high₂ ht hu hv
    obtain ⟨r, hr⟩ := State.hs_ready.mp hs
    obtain ⟨dir₁, rfl⟩ := exists_argument low₁ high₁
    obtain ⟨dir₂, rfl⟩ := exists_argument low₂ high₂
    obtain ⟨ti, tr⟩ := exec_set_handle hi hr ht
    obtain ⟨-, ur⟩ := exec_set_handle ti tr hu
    obtain ⟨-, vr⟩ := exec_set_handle hi hr hv
    exact State.outputs_eq_of_handle (by rw [ur, vr, setOutput_setOutput_same])
  case commute =>
    intro s t u v x a b d₁ d₂ hab hi hs low₁ high₁ low₂ high₂ ht hu hv hx
    obtain ⟨r, hr⟩ := State.hs_ready.mp hs
    obtain ⟨dir₁, rfl⟩ := exists_argument low₁ high₁
    obtain ⟨dir₂, rfl⟩ := exists_argument low₂ high₂
    obtain ⟨ti, tr⟩ := exec_set_handle hi hr ht
    obtain ⟨-, ur⟩ := exec_set_handle ti tr hu
    obtain ⟨vi, vr⟩ := exec_set_handle hi hr hv
    obtain ⟨-, xr⟩ := exec_set_handle vi vr hx
    exact State.outputs_eq_of_handle (by rw [ur, xr, setOutput_comm _ _ _ hab])
  case applied =>
    intro s t u axis d en conf ht hen hconf hu
    obtain ⟨trace, -, -⟩ := exec_set_next ht
    rw [← trace]
    exact exec_apply_events hen hconf hu

/-! ### What the command word carries -/

/-- A CMD_CONFIG word drives half-bridge `i` by bit `i` of the staged registers (30_encoding.md R54). -/
theorem halfBridgeDrive_configWord (en conf : Byte) (i : Fin 6) :
    halfBridgeDrive (configWord en conf) i =
      if en.getLsbD i.val then some (if conf.getLsbD i.val then .highSideOn else .lowSideOn) else none := by
  simp [halfBridgeDrive, cmdFields_configWord]

/-- Bit `i` of a pair decides how its half-bridge is driven, if the pair is enabled. -/
theorem halfBridgeDrive_of_enabled {en : Byte} {a : Axis} (conf : Byte) (hen : getPair en a = 0b11#2) {i : Nat}
    (hi : i < 2) (h : 2 * a.val + i < 6) :
    halfBridgeDrive (configWord en conf) ⟨2 * a.val + i, h⟩ =
      some (if (getPair conf a).getLsbD i then .highSideOn else .lowSideOn) := by
  have enabled : (getPair en a).getLsbD i = true := by rw [hen]; interval_cases i <;> rfl
  simp only [getPair_getLsbD, hi, decide_true, Bool.true_and] at enabled ⊢
  rw [halfBridgeDrive_configWord, if_pos enabled]

/-- The first half-bridge of a pair is high for +1 alone, the second for -1 alone (40_device_state.md R71). -/
theorem directionPair_bits (dir : Direction) :
    ((directionPair dir).getLsbD 0 = true ↔ dir.argument = 1) ∧
      ((directionPair dir).getLsbD 1 = true ↔ dir.argument = -1) := by
  cases dir <;> decide

/-- Settles O21: the pair's two bits are those of its two half-bridges. -/
theorem directionDrivesItsHalfBridges : Obligations.DirectionDrivesItsHalfBridges := by
  intro s t a d en conf hi hs low high hx hen hconf
  obtain ⟨r, hr⟩ := State.hs_ready.mp hs
  obtain ⟨dir, rfl⟩ := exists_argument low high
  obtain ⟨-, ht⟩ := exec_set_handle hi hr hx
  have staged : setOutput a dir r = ⟨en, conf⟩ := State.ready_staged_eq ht hen hconf
  have enabled : getPair en a = 0b11#2 := by simpa [staged] using getPair_setOutput_outEn_same a dir r
  have direction : getPair conf a = directionPair dir := by simpa [staged] using getPair_setOutput_outConf_same a dir r
  obtain ⟨plus, minus⟩ := directionPair_bits dir
  have drive {i : Nat} := halfBridgeDrive_of_enabled conf enabled (i := i)
  refine ⟨direction.trans (directionPair_eq dir), fun h => ⟨?first, ?second⟩⟩
  case first => simpa only [direction, plus, Nat.add_zero] using drive (i := 0) (by omega) (by omega)
  case second => simpa only [direction, minus] using drive (i := 1) (by omega) (by omega)

/-- Pair 3 is bits 7:6 (00_scope.md R14), which ENCODE discards (41_command_encoder.md R78). -/
theorem setWidth_setPair_three (x : Byte) (v : BitVec 2) : (setPair x 3 v).setWidth 6 = x.setWidth 6 := by
  refine BitVec.eq_of_getLsbD_eq fun j hj => ?_
  have otherPair : j / 2 ≠ (3 : Axis).val := by show j / 2 ≠ 3; omega
  simp only [BitVec.getLsbD_setWidth, setPair_getLsbD x 3 v (Nat.lt_add_right 2 hj), if_neg otherPair]

theorem configWord_setOutput_three (dir : Direction) (r : Staged) :
    configWord (setOutput 3 dir r).outEn (setOutput 3 dir r).outConf = configWord r.outEn r.outConf := by
  simp only [configWord, encodeCommand, setOutput, setWidth_setPair_three]

/-- Settles O23: axis 3 is staged like any other (40_device_state.md R75), in the pair that the word leaves out. -/
theorem axisThreeNeverReachesTheWord : Obligations.AxisThreeNeverReachesTheWord := by
  intro s d en conf hi hr low high
  obtain ⟨dir, rfl⟩ := exists_argument low high
  exact ⟨_, _, exec_set_staged 3 dir hi hr, getPair_setOutput_outEn_same 3 dir _,
    (getPair_setOutput_outConf_same 3 dir _).trans (directionPair_eq dir), configWord_setOutput_three dir _⟩

end Sys2Proof.Machine
end

section
/-! PROOFS. The command encoder (41_command_encoder.md): where the bits of a word come from, ENCODE against CMD_FIELDS, the
two bytes of a word, and the frames that a wire form run by itself sends. -/

namespace Sys2Proof.Machine

/-! ### The bits of a word's fields (30_encoding.md R53) -/

section

variable (w : Word) {i : Nat}

theorem srr_getLsbD : (cmdFields w).srr.getLsbD 0 = w.getLsbD 15 :=
  BitVec.getLsbD_extractLsb' ..

theorem hbsel_getLsbD : (cmdFields w).hbsel.getLsbD 0 = w.getLsbD 14 :=
  BitVec.getLsbD_extractLsb' ..

theorem uldsc_getLsbD : (cmdFields w).uldsc.getLsbD 0 = w.getLsbD 13 :=
  BitVec.getLsbD_extractLsb' ..

theorem ovlo_getLsbD : (cmdFields w).ovlo.getLsbD 0 = w.getLsbD 0 :=
  BitVec.getLsbD_extractLsb' ..

theorem hben_getLsbD (hi : i < 6) : (cmdFields w).hben.getLsbD i = w.getLsbD (7 + i) := by
  simp [cmdFields, fieldsWith, cmdLayout, hi]

theorem hbcnf_getLsbD (hi : i < 6) : (cmdFields w).hbcnf.getLsbD i = w.getLsbD (1 + i) := by
  simp [cmdFields, fieldsWith, cmdLayout, hi]

end

/-! ### ENCODE and CMD_FIELDS -/

@[simp] theorem cmdFields_encodeCommand (en conf : Byte) (r : BitVec 1) :
    cmdFields (encodeCommand en conf r) = ⟨r, 0, 0, en.setWidth 6, conf.setWidth 6, 0⟩ :=
  cmdFields_packCommand _

/-- ENCODE of six-bit fields discards nothing (41_command_encoder.md R78). -/
theorem encodeCommand_setWidth (hben hbcnf : HbField) (r : BitVec 1) :
    encodeCommand (hben.setWidth 8) (hbcnf.setWidth 8) r = packCommand ⟨r, 0, 0, hben, hbcnf, 0⟩ := by
  simp [encodeCommand]

theorem eq_zero_of_getLsbD_zero {v : BitVec 1} (h : v.getLsbD 0 = false) : v = 0 := by
  rcases BitVec.eq_zero_or_eq_one v with rfl | rfl
  · rfl
  · cases h

/-- A word with bits 14, 13 and 0 clear is the encoding of its own fields (41_command_encoder.md R83). -/
theorem encodeCommand_cmdFields {w : Word} (bit14 : w.getLsbD 14 = false) (bit13 : w.getLsbD 13 = false)
    (bit0 : w.getLsbD 0 = false) :
    encodeCommand ((cmdFields w).hben.setWidth 8) ((cmdFields w).hbcnf.setWidth 8) (cmdFields w).srr = w := by
  have hbsel : (cmdFields w).hbsel = 0 := eq_zero_of_getLsbD_zero ((hbsel_getLsbD w).trans bit14)
  have uldsc : (cmdFields w).uldsc = 0 := eq_zero_of_getLsbD_zero ((uldsc_getLsbD w).trans bit13)
  have ovlo : (cmdFields w).ovlo = 0 := eq_zero_of_getLsbD_zero ((ovlo_getLsbD w).trans bit0)
  calc encodeCommand ((cmdFields w).hben.setWidth 8) ((cmdFields w).hbcnf.setWidth 8) (cmdFields w).srr
      = packCommand ⟨(cmdFields w).srr, 0, 0, (cmdFields w).hben, (cmdFields w).hbcnf, 0⟩ :=
        encodeCommand_setWidth _ _ _
    _ = packCommand (cmdFields w) :=
        congrArg packCommand ((CmdFields.mk.injEq ..).mpr ⟨rfl, hbsel.symm, uldsc.symm, rfl, rfl, ovlo.symm⟩)
    _ = w := packCommand_cmdFields w

/-- Settles O1: packing and reading the fields are inverse, and ENCODE packs the low six bits of its operands. -/
theorem commandFieldsRoundTrip : Obligations.CommandFieldsRoundTrip := by
  refine ⟨fun en conf r => ?_, fun _ => encodeCommand_cmdFields, packCommand_cmdFields, cmdFields_packCommand⟩
  rw [cmdFields_encodeCommand, BitVec.setWidth_eq_extractLsb' (by decide), BitVec.setWidth_eq_extractLsb' (by decide)]
  rfl

/-- ENCODE sees its operands' low six bits only (41_command_encoder.md R78). -/
theorem encodeCommand_congr {en en' conf conf' : Byte} (r : BitVec 1) (hen : en'.extractLsb' 0 6 = en.extractLsb' 0 6)
    (hconf : conf'.extractLsb' 0 6 = conf.extractLsb' 0 6) : encodeCommand en' conf' r = encodeCommand en conf r := by
  simp only [encodeCommand, BitVec.setWidth_eq_extractLsb' (show 6 ≤ 8 by decide), hen, hconf]

/-- Settles O2: each bit of the word is a bit of the field that stands there, and the fields are those encoded. -/
theorem stagedBitsReachTheirPlaces : Obligations.StagedBitsReachTheirPlaces := by
  intro en conf r
  refine ⟨?strobe, fun i => ⟨?enable, ?level⟩, ?hbsel, ?uldsc, ?ovlo, fun en' conf' => encodeCommand_congr r⟩
  case strobe => rw [← srr_getLsbD, cmdFields_encodeCommand]
  case enable => rw [← hben_getLsbD _ i.isLt, cmdFields_encodeCommand]; simp
  case level => rw [← hbcnf_getLsbD _ i.isLt, cmdFields_encodeCommand]; simp
  case hbsel => rw [← hbsel_getLsbD, cmdFields_encodeCommand]; exact BitVec.getLsbD_zero
  case uldsc => rw [← uldsc_getLsbD, cmdFields_encodeCommand]; exact BitVec.getLsbD_zero
  case ovlo => rw [← ovlo_getLsbD, cmdFields_encodeCommand]; exact BitVec.getLsbD_zero

/-- Settles O3: `resetWord` is by definition ENCODE of cleared registers with the reset flag. -/
theorem resetWordIsTheStrobeAlone : Obligations.ResetWordIsTheStrobeAlone :=
  ⟨resetWord_eq, resetWord_eq, resetWord_eq ▸ cmdFields_encodeCommand 0#8 0#8 1#1⟩

/-! ### The two bytes of a word -/

theorem serialize_getLsbD (w : Word) {i : Nat} (hi : i < 8) :
    (serialize w).1.getLsbD i = w.getLsbD (8 + i) ∧ (serialize w).2.getLsbD i = w.getLsbD i := by
  simp [serialize, hi]

/-- Settles O4: each byte is a slice of the word; the two examples are evaluated. -/
theorem serializeSplitsTheWord : Obligations.SerializeSplitsTheWord :=
  ⟨fun w i => serialize_getLsbD w i.isLt, by decide, by decide⟩

/-! ### The wire forms run by themselves -/

/-- Settles O33: RESET_TXN's one frame, whatever is clocked back. -/
theorem cmdResetSendsItsFrame : Obligations.CmdResetSendsItsFrame := by
  intro s hi hb
  rw [exec_cmdReset_bound hi hb, ← resetWord_eq]
  refine ⟨fun refused => ?_, fun lost accepted => ?_⟩
  · rw [resetTxn_answered refused]; rfl
  · rw [resetTxn_answered accepted]; rfl

/-- APPLY_TXN's state where both frames are answered: the reply stands in the second event, whatever it is
(43_transaction_sequencer.md R94). -/
theorem verifyTxn_secondAnswered {w x : Word} {s : State} {r : Reply} (h : s.drawn (.write w) = some (.ok x))
    (g : (s.popAnswer.logEvent (.write w .ok)).drawn (.writeRead w) = some r) :
    (verifyTxn w s).1 = (s.popAnswer.logEvent (.write w .ok)).popAnswer.logEvent (.writeRead w r) := by
  cases r with
  | ok reply => rw [verifyTxn_replied h g]
  | err => rw [verifyTxn_secondErr h g]

/-- Settles O34: the word sent is the one packed from the instruction's fields, and APPLY_TXN sends it. -/
theorem cmdConfigSendsItsFrames : Obligations.CmdConfigSendsItsFrames := by
  intro s hben hbcnf hi hb
  refine ⟨packCommand ⟨0, 0, 0, hben, hbcnf, 0⟩, cmdFields_packCommand _, ?_⟩
  rw [exec_cmdConfig_bound hben hbcnf hi hb]
  refine ⟨fun refused => ?_, fun lost accepted r second => ?_⟩
  · rw [verifyTxn_firstErr refused]; rfl
  · rw [verifyTxn_secondAnswered accepted second]; rfl

end Sys2Proof.Machine
end

section
/-! PROOFS. The status word as its six fields (42_status_decoder.md R85) and CLASSIFY on them (R86, R88). -/

namespace Sys2Proof.Machine

/-! ### The status word's fields -/

/-- Status fields are packed at the places of the command fields (decisions D1 and D2). -/
theorem packStatus_eq_packCommand (f : StatusFields) :
    packStatus f = packCommand ⟨f.ocs, f.psf, f.uld, f.hbst, f.hbcr, f.tw⟩ := rfl

@[simp] theorem packStatus_statusDecode (s : Word) : packStatus (statusDecode s) = s := by
  rw [packStatus_eq_packCommand, statusDecode_eq_cmdFields, packCommand_cmdFields]

@[simp] theorem statusDecode_packStatus (f : StatusFields) : statusDecode (packStatus f) = f := by
  rw [packStatus_eq_packCommand, statusDecode_eq_cmdFields, cmdFields_packCommand]

/-- Settles O12: the places are those of the command fields, whose packing and reading are inverse. -/
theorem statusFieldsAreTheWholeWord : Obligations.StatusFieldsAreTheWholeWord := by
  refine ⟨fun s => ?_, statusDecode_packStatus⟩
  refine ⟨?ocs, ?psf, ?uld, ?tw, fun i => ⟨?hbst, ?hbcr⟩, packStatus_statusDecode s⟩ <;>
    rw [statusDecode_eq_cmdFields]
  case ocs => exact srr_getLsbD s
  case psf => exact hbsel_getLsbD s
  case uld => exact uldsc_getLsbD s
  case tw => exact ovlo_getLsbD s
  case hbst => exact hben_getLsbD s i.isLt
  case hbcr => exact hbcnf_getLsbD s i.isLt

/-! ### CLASSIFY -/

/-- Settles O13: the checks are split in their precedence order, and each outcome is read off its row. -/
theorem classifyIsTheTable : Obligations.ClassifyIsTheTable := by
  intro w s
  have field : (cmdFields w).hbcnf = w.extractLsb' 1 6 := rfl
  rw [classify, field]
  generalize statusDecode s = f
  by_cases verified : f.hbcr = w.extractLsb' 1 6
  case neg => simp [verified]
  rcases BitVec.eq_zero_or_eq_one f.tw with tw | tw
  case inr => simp [verified, tw]
  rcases BitVec.eq_zero_or_eq_one f.psf with psf | psf
  case inr => simp [verified, tw, psf]
  rcases BitVec.eq_zero_or_eq_one f.ocs with ocs | ocs
  case inr => simp [verified, tw, psf, ocs]
  rcases BitVec.eq_zero_or_eq_one f.uld with uld | uld
  case inr => simp [verified, tw, psf, ocs, uld]
  case inl => simp [verified, tw, psf, ocs, uld]

/-- CLASSIFY reads five of the six fields: all but `hbst`. -/
theorem classify_congr (w : Word) {s s' : Word}
    (fields : { statusDecode s with hbst := 0 } = { statusDecode s' with hbst := 0 }) :
    classify w s = classify w s' := by
  obtain ⟨ocs, psf, uld, -, hbcr, tw⟩ := (StatusFields.mk.injEq ..).mp fields
  simp only [classify, ocs, psf, uld, hbcr, tw]

theorem extractLsb'_congr {s s' : Word} {lo n : Nat}
    (agree : ∀ i < n, s.getLsbD (lo + i) = s'.getLsbD (lo + i)) : s.extractLsb' lo n = s'.extractLsb' lo n := by
  refine BitVec.eq_of_getLsbD_eq fun i hi => ?_
  rw [BitVec.getLsbD_extractLsb', BitVec.getLsbD_extractLsb', agree i hi]

/-- Settles O14: the five fields that CLASSIFY reads stand outside bits 12:7. -/
theorem classifyIgnoresHbst : Obligations.ClassifyIgnoresHbst := by
  intro w s s' agree
  have slice {lo n : Nat} (inWord : lo + n ≤ 16) (outside : lo + n ≤ 7 ∨ 12 < lo) :
      s.extractLsb' lo n = s'.extractLsb' lo n :=
    extractLsb'_congr fun i hi => agree ⟨lo + i, by omega⟩ (by dsimp only; omega)
  refine classify_congr w ((StatusFields.mk.injEq ..).mpr ⟨?ocs, ?psf, ?uld, rfl, ?hbcr, ?tw⟩)
  case ocs => exact slice (lo := 15) (by decide) (by decide)
  case psf => exact slice (lo := 14) (by decide) (by decide)
  case uld => exact slice (lo := 13) (by decide) (by decide)
  case hbcr => exact slice (lo := 1) (by decide) (by decide)
  case tw => exact slice (lo := 0) (by decide) (by decide)

end Sys2Proof.Machine
end

section
/-! PROOFS. The host operations of the Transaction Sequencer (43_transaction_sequencer.md): APPLY, INITIALIZE and CLOSE by
their rules (R95 to R101), the transition table (R102), the calls of each operation (R104, R108) and their end (R110). -/

namespace Sys2Proof.Machine

/-! ### Which operations a handle admits, and what the others do -/

section

variable {hs : HandleState}

theorem admittedIn_init : admittedIn .init hs = true ↔ hs = .uninit := by cases hs <;> decide

theorem admittedIn_setOutput : admittedIn .setOutput hs = true ↔ hs = .ready := by cases hs <;> decide

theorem admittedIn_apply : admittedIn .apply hs = true ↔ hs = .ready := by cases hs <;> decide

theorem admittedIn_close : admittedIn .close hs = true ↔ hs = .uninit ∨ hs = .ready := by cases hs <;> decide

/-- READY admits every operation but INITIALIZE (R102). -/
theorem admittedIn_ready {op : HostOp} (h : op ≠ .init) : admittedIn op .ready = true := by
  cases op with
  | init => exact absurd rfl h
  | _ => rfl

end

section

variable {s t : State} {i : Instr} {op : HostOp}

theorem guardOp_notAdmitted {b : Host.Outcome State Fault Refusal} (hi : s.idle) (ha : admittedIn op s.hs = false) :
    guardOp op s b = .next (s.raise (.notReady op s.hs)) := by
  simp [guardOp, unlessStopped_body hi.1 hi.2, ha]

/-- Undefined use raises the mark, whichever guard the operation begins with (R103). -/
theorem exec_notAdmitted (ho : hostOpOf i = some op) (hi : s.idle) (ha : admittedIn op s.hs = false) :
    exec i s = .next (s.raise (.notReady op s.hs)) := by
  cases i with
  | init => cases ho; exact guardOp_notAdmitted hi ha
  | set => cases ho; exact exec_set_notReady hi fun hr => by simp [admittedIn_setOutput.mpr hr] at ha
  | apply => cases ho; exact onReady_notReady hi.1 hi.2 fun hr => by simp [admittedIn_apply.mpr hr] at ha
  | close => cases ho; exact guardOp_notAdmitted hi ha
  | cmdReset => cases ho
  | cmdConfig => cases ho

theorem exec_close_uninit (hi : s.idle) (hu : s.hs = .uninit) : exec .close s = .next (s.closeHandle.respond .done) :=
  (guardOp_body hi.1 hi.2 (by simp [hu, admittedIn])).trans (if_pos hu)

theorem exec_set_ready (axis d : Int) (hi : s.idle) (hr : s.hs = .ready) : ∃ t, exec (.set axis d) s = .next t := by
  obtain ⟨r, hr⟩ := State.hs_ready.mp hr
  rw [exec, execSet, onReady_ready hi.1 hi.2 hr]
  split
  · exact ⟨_, rfl⟩
  · exact ⟨_, rfl⟩

/-- An admitted operation of an idle engine always answers a next state. -/
theorem exec_admitted (ho : hostOpOf i = some op) (hi : s.idle) (ha : admittedIn op s.hs = true) :
    ∃ t, exec i s = .next t := by
  cases i with
  | init => cases ho; exact ⟨_, exec_init_uninit _ _ _ hi (admittedIn_init.mp ha)⟩
  | set => cases ho; exact exec_set_ready _ _ hi (admittedIn_setOutput.mp ha)
  | apply =>
    cases ho
    obtain ⟨⟨en, conf⟩, hr⟩ := State.hs_ready.mp (admittedIn_apply.mp ha)
    exact ⟨_, exec_apply_ready hi hr⟩
  | close =>
    cases ho
    rcases admittedIn_close.mp ha with hu | hr
    · exact ⟨_, exec_close_uninit hi hu⟩
    · exact ⟨_, exec_close_ready hi hr⟩
  | cmdReset => cases ho
  | cmdConfig => cases ho

/-- An admitted operation raises no mark. -/
theorem exec_admitted_fault (ho : hostOpOf i = some op) (hf : s.fault = none) (ha : admittedIn op s.hs = true)
    (hx : exec i s = .next t) : t.fault = s.fault := by
  obtain ⟨-, ⟨faulted, -⟩ | ⟨-, op', ho', refused, -⟩ | ⟨-, -, e⟩⟩ := exec_next hx
  · exact absurd hf faulted
  · cases ho.symm.trans ho'
    cases ha.symm.trans refused
  · exact e.fault

end

/-! ### APPLY -/

/-- Settles O24: the guards, then APPLY_TXN's three answered paths. -/
theorem applyFollowsItsRule : Obligations.ApplyFollowsItsRule := by
  intro s hw
  refine ⟨fun m => exec_faulted _ hw,
    fun hf hr => exec_notAdmitted rfl ⟨hw, hf⟩ (admittedIn_notReady (.inr rfl) hr), fun en conf hf hr => ?_⟩
  rw [exec_apply_ready ⟨hw, hf⟩ hr]
  refine ⟨fun h => ?firstErr, fun lost h => ⟨fun g => ?secondErr, fun reply g => ?replied⟩⟩
  case firstErr => rw [configWord, verifyTxn_firstErr h]; rfl
  case secondErr => rw [configWord, verifyTxn_secondErr h g]; rfl
  case replied => rw [configWord, verifyTxn_replied h g]; rfl

/-- The events of an APPLY of the word `w` that ends (R94, R108). -/
def ApplyEvents (w : Word) (events : List TxEvent) : Prop :=
  events = [.write w .err] ∨ ∃ r, events = [.write w .ok, .writeRead w r]

/-- CLASSIFY never gives the outcome that belongs to SET_OUTPUT (60_exceptions.md R115). -/
theorem classify_ne_invalidArgument (w s : Word) : classify w s ≠ .invalidArgument := by
  simp only [classify]
  split_ifs <;> nofun

/-- An APPLY_TXN whose calls are all answered writes the trace and gives one outcome. -/
theorem Sent.ended {w : Word} {s : State} {p : State × Option OutcomeCode} (hp : Sent w s p)
    (ended : (respondWith p).waiting = none) :
    ∃ (rest : List Answer) (events : List TxEvent) (o : OutcomeCode), ApplyEvents w events ∧ o ≠ .invalidArgument ∧
      respondWith p =
        { s with answers := rest, trace := s.trace ++ events, responses := s.responses ++ [.outcome o] } := by
  cases hp with
  | firstSilent => cases ended
  | firstErr => exact ⟨_, _, .transportError, .inl rfl, nofun, rfl⟩
  | secondSilent => cases ended
  | secondErr =>
    refine ⟨s.answers.tail.tail, _, .transportError, .inr ⟨.err, rfl⟩, nofun, ?_⟩
    simp [respondWith, State.respond, State.logEvent, State.popAnswer]
  | replied r =>
    refine ⟨s.answers.tail.tail, _, classify w r, .inr ⟨.ok r, rfl⟩, classify_ne_invalidArgument w r, ?_⟩
    simp [respondWith, State.respond, State.logEvent, State.popAnswer]

/-- APPLY of a READY handle that ends: nothing but the trace and the model's own lists is written (R98). -/
theorem exec_apply_ended {s t : State} {en conf : Byte} (hi : s.idle) (hr : s.handle = .ready ⟨en, conf⟩)
    (hx : exec .apply s = .next t) (ended : t.waiting = none) :
    ∃ (rest : List Answer) (events : List TxEvent) (o : OutcomeCode), ApplyEvents (configWord en conf) events ∧
      t = { s with answers := rest, trace := s.trace ++ events, responses := s.responses ++ [.outcome o] } := by
  cases (exec_apply_ready hi hr).symm.trans hx
  obtain ⟨rest, events, o, path, -, e⟩ := (verifyTxn_sent _ s).ended ended
  exact ⟨rest, events, o, path, e⟩

theorem framesSent_append (xs ys : List TxEvent) : framesSent (xs ++ ys) = framesSent xs ++ framesSent ys :=
  List.filterMap_append

theorem framesReceived_append (xs ys : List TxEvent) :
    framesReceived (xs ++ ys) = framesReceived xs ++ framesReceived ys :=
  List.filterMap_append

/-- The frames received are those of the events answered Ok. -/
theorem framesReceived_eq (tr : List TxEvent) :
    framesReceived tr = framesSent (tr.filter fun e => (receivedWord e).isSome) := by
  rw [framesSent, List.filterMap_filter]
  refine congrArg (tr.filterMap ·) (funext fun e => ?_)
  rcases e with ⟨_, _⟩ | _ | ⟨_, _ | _⟩ | ⟨_, _ | _⟩ <;> rfl

theorem length_framesReceived_le (tr : List TxEvent) : (framesReceived tr).length ≤ (framesSent tr).length := by
  rw [framesReceived_eq]
  exact (List.filter_sublist.filterMap sentWord).length_le

section

variable {w : Word} {events : List TxEvent}

theorem ApplyEvents.frames (h : ApplyEvents w events) : ∀ v ∈ framesSent events, v = w := by
  rcases h with rfl | ⟨r, rfl⟩ <;> simp [framesSent, sentWord]

/-- An APPLY whose frames are all answered Ok sends two. -/
theorem ApplyEvents.two_frames (h : ApplyEvents w events)
    (received : (framesReceived events).length = (framesSent events).length) : (framesSent events).length = 2 := by
  rcases h with rfl | ⟨_ | _, rfl⟩
  · cases received
  · rfl
  · cases received

end

/-- Settles O25: each APPLY leaves the registers and sends their word, twice where its frames are answered Ok. -/
theorem repeatedApplySendsTheSameWord : Obligations.RepeatedApplySendsTheSameWord := by
  intro s t u en conf hi hr ht tEnds hu uEnds
  obtain ⟨rest₁, events₁, o₁, path₁, rfl⟩ := exec_apply_ended hi hr ht tEnds
  obtain ⟨rest₂, events₂, o₂, path₂, rfl⟩ := exec_apply_ended ⟨tEnds, hi.2⟩ hr hu uEnds
  refine ⟨State.ready_outEn hr, State.ready_outConf hr, events₁ ++ events₂, List.append_assoc .., ?words, ?four⟩
  case words =>
    intro w hw
    rw [framesSent_append, List.mem_append] at hw
    exact hw.elim (path₁.frames w) (path₂.frames w)
  case four =>
    intro received
    have lengths := congrArg List.length received
    rw [framesReceived_append, framesSent_append, List.length_append, List.length_append] at lengths
    have le₁ := length_framesReceived_le events₁
    have le₂ := length_framesReceived_le events₂
    have two₁ := path₁.two_frames (by omega)
    have two₂ := path₂.two_frames (by omega)
    rw [framesSent_append, List.length_append, two₁, two₂]

/-- Settles O28: APPLY keeps the handle and the absent mark, and READY admits the three operations. -/
theorem faultOutcomeKeepsTheHandleReady : Obligations.FaultOutcomeKeepsTheHandleReady := by
  intro s t hi hs ht ended
  obtain ⟨⟨en, conf⟩, hr⟩ := State.hs_ready.mp hs
  obtain ⟨rest, events, o, -, e⟩ := exec_apply_ended hi hr ht ended
  have ready : t.hs = .ready := by rw [e]; exact hs
  have noFault : t.fault = none := by rw [e]; exact hi.2
  refine ⟨ready, noFault, ⟨o, by rw [e]⟩, fun i op ho notInit => ?_⟩
  have admitted : admittedIn op t.hs = true := ready ▸ admittedIn_ready notInit
  obtain ⟨u, hu⟩ := exec_admitted ho ⟨ended, noFault⟩ admitted
  exact ⟨u, hu, (exec_admitted_fault ho noFault admitted hu).trans noFault⟩

/-! ### INITIALIZE and CLOSE -/

theorem txRelease_logEvent (e : TxEvent) (s : State) :
    txRelease (s.logEvent e) = { s with trace := s.trace ++ [e, .release], bound := false } := by
  simp [txRelease, State.logEvent, State.setBound]

/-- The state in which INITIALIZE sends its reset frame (R95): the session bound, both registers cleared. -/
def boundForReset (cfg : BindCfg) (s : State) : State :=
  ((s.popAnswer.logEvent (.bind cfg .ok)).setBound true).stage clearedRegisters

section

variable {cfg : BindCfg} {s : State} {x : Word}

theorem boundForReset_uninit (hu : s.hs = .uninit) :
    boundForReset cfg s =
      { s with
        answers := s.answers.tail, trace := s.trace ++ [.bind cfg .ok], bound := true,
        handle := .uninit (some clearedRegisters) } := by
  obtain ⟨q, hq⟩ := State.hs_uninit.mp hu
  exact State.stage_uninit (q := q) _ hq

theorem runInit_resetErr (h : s.drawn (.bind cfg) = some (.ok x))
    (g : (boundForReset cfg s).drawn (.write resetWord) = some .err) :
    runInit cfg s =
      (txRelease ((boundForReset cfg s).popAnswer.logEvent (.write resetWord .err))).respond
        (.outcome .transportError) := by
  rw [runInit_bound h, ← boundForReset, resetTxn_answered g]; rfl

theorem runInit_resetOk {y : Word} (h : s.drawn (.bind cfg) = some (.ok x))
    (g : (boundForReset cfg s).drawn (.write resetWord) = some (.ok y)) :
    runInit cfg s =
      (((boundForReset cfg s).popAnswer.logEvent (.write resetWord .ok)).openHandle clearedRegisters).respond
        (.outcome .success) := by
  rw [runInit_bound h, ← boundForReset, resetTxn_answered g]; rfl

end

/-- Settles O29: the guards, then the three answered paths of the bind and the power-on reset. -/
theorem initializeFollowsItsRule : Obligations.InitializeFollowsItsRule := by
  intro s bus cs gpioCs hw
  refine ⟨fun m => exec_faulted _ hw, fun hf hu => exec_notAdmitted rfl ⟨hw, hf⟩ ?_, fun hf hu => ?_⟩
  · exact Bool.eq_false_iff.mpr (mt admittedIn_init.mp hu)
  intro cfg
  have cfg_eq : bindCfg bus cs gpioCs = cfg := rfl
  rw [exec_init_uninit bus cs gpioCs ⟨hw, hf⟩ hu, cfg_eq, ← resetWord_eq]
  refine ⟨fun h => ?bindErr, fun lost h => ?bound⟩
  case bindErr => rw [runInit_bindErr h]; rfl
  case bound =>
    have bound := boundForReset_uninit (cfg := cfg) hu
    refine ⟨fun g => ?_, fun lost' g => ?_⟩
    · rw [runInit_resetErr h (bound ▸ g), txRelease_logEvent, bound]; rfl
    · rw [runInit_resetOk h (bound ▸ g), bound]; rfl

/-- Settles O30: the guards, then CLOSE from UNINIT and from READY. -/
theorem closeFollowsItsRule : Obligations.CloseFollowsItsRule := by
  intro s hw
  refine ⟨fun m => exec_faulted _ hw, fun hf hc => ?closed, fun registers hf hu => ?uninit, fun hf hr => ?ready⟩
  case closed => exact hc ▸ exec_notAdmitted rfl ⟨hw, hf⟩ (by simp [hc, admittedIn])
  case uninit =>
    rw [exec_close_uninit ⟨hw, hf⟩ (State.hs_uninit.mpr ⟨_, hu⟩)]
    simp [State.closeHandle, State.respond, hu, Handle.staged]
  case ready =>
    rw [← resetWord_eq]
    intro s₁ r h
    have staged : s.stage clearedRegisters = s₁ := State.stage_ready _ hr
    rw [exec_close_ready ⟨hw, hf⟩ hr, staged, resetTxn_answered h, finishClose, txRelease_logEvent]
    cases r <;> rfl

/-- Settles O32: the next state of CLOSE in READY, which is the same for both answers but for the frame's event. -/
theorem closeAlwaysCompletes : Obligations.CloseAlwaysCompletes := by
  intro s r hi hr h
  obtain ⟨-, -, -, ready⟩ := closeFollowsItsRule s hi.1
  exact ⟨_, ready hi.2 hr r h, rfl, rfl, hi, by simp, rfl⟩

/-- Settles O31: the paths of INITIALIZE that end. -/
theorem initializeAnswersItsReset : Obligations.InitializeAnswersItsReset := by
  intro s t bus cs gpioCs hi hu hx ended
  rw [← resetWord_eq]
  cases (exec_init_uninit bus cs gpioCs hi hu).symm.trans hx
  rcases runInit_cases (bindCfg bus cs gpioCs) s with e | e | e | e | e <;> rw [e] at ended ⊢
  · cases ended
  · exact .inl ⟨rfl, rfl, hu⟩
  · cases ended
  · exact .inr ⟨.ok, [], by simp, rfl, rfl⟩
  · exact .inr ⟨.err, [.release], by simp, rfl, rfl⟩

/-! ### The transition table and the calls of each operation -/

/-- Settles O50: a path that neither waits nor faults is a row of the table. -/
theorem handleFollowsTheTransitionTable : Obligations.HandleFollowsTheTransitionTable := by
  intro s t i op ho hi hx ⟨ended, noFault⟩
  obtain ⟨-, ⟨faulted, -⟩ | ⟨-, _, -, -, rfl⟩ | ⟨-, -, e⟩⟩ := exec_next hx
  · exact absurd hi.2 faulted
  · cases noFault
  · cases e with
    | invalid axis d hr => cases ho; exact ⟨_, rfl, by simp [hr]⟩
    | staged axis d a dir r hr => cases ho; exact ⟨_, rfl, by simp [State.ready_hs hr]⟩
    | applied r p hr hp =>
      cases ho
      obtain ⟨rest, events, o, -, outcome, e⟩ := hp.ended ended
      rw [e]
      exact ⟨_, rfl, .inr (.inr (.inr (.inr (.inl ⟨rfl, State.ready_hs hr, ⟨o, rfl, outcome⟩, State.ready_hs hr⟩))))⟩
    | bindSilent => cases ended
    | bindErr bus cs g hu => cases ho; exact ⟨_, rfl, by simp [hu]⟩
    | resetSilent => cases ended
    | resetOk bus cs g hu => cases ho; exact ⟨_, rfl, by simp [hu]⟩
    | resetErr bus cs g hu => cases ho; exact ⟨_, rfl, by simp [hu]⟩
    | closeUninit hu => cases ho; exact ⟨_, rfl, by simp [hu]⟩
    | closeSilent => cases ended
    | closeReady a hr => cases ho; exact ⟨_, rfl, by simp [hr]⟩
    | strobeSilent => cases ho
    | strobe => cases ho
    | configured => cases ho

/-- After a failed frame no frame is sent (R104). -/
def NoFrameAfterFailure (events : List TxEvent) : Prop :=
  ∀ (before rest : List TxEvent) (e : TxEvent), events = before ++ e :: rest → sentWord e ≠ none →
    receivedWord e = none → framesSent rest = []

theorem NoFrameAfterFailure.nil : NoFrameAfterFailure [] := by
  intro before rest e h
  simp at h

theorem NoFrameAfterFailure.cons {e : TxEvent} {events : List TxEvent} (tail : NoFrameAfterFailure events)
    (head : sentWord e ≠ none → receivedWord e = none → framesSent events = []) :
    NoFrameAfterFailure (e :: events) := by
  intro before rest f h
  cases before with
  | nil => cases h; exact head
  | cons b before => cases h; exact tail before rest f rfl

theorem NoFrameAfterFailure.bind {events : List TxEvent} (tail : NoFrameAfterFailure events) (cfg : BindCfg) (a : Ack) :
    NoFrameAfterFailure (.bind cfg a :: events) :=
  tail.cons fun noFrame => absurd rfl noFrame

theorem NoFrameAfterFailure.frame (w : Word) (a : Ack) : NoFrameAfterFailure [.write w a] :=
  .cons .nil fun _ _ => rfl

theorem NoFrameAfterFailure.frame_release (w : Word) (a : Ack) : NoFrameAfterFailure [.write w a, .release] :=
  .cons (.cons .nil fun _ _ => rfl) fun _ _ => rfl

theorem ApplyEvents.noFrameAfterFailure {w : Word} {events : List TxEvent} (h : ApplyEvents w events) :
    NoFrameAfterFailure events := by
  rcases h with rfl | ⟨r, rfl⟩
  · exact .frame w .err
  · exact .cons (.cons .nil fun _ _ => rfl) nofun

/-- Settles O51: the calls of each path that ends; only a release follows a frame answered Err. -/
theorem eventsOfEachOperation : Obligations.EventsOfEachOperation := by
  intro s t i op ho hw hx ended
  rw [← resetWord_eq]
  obtain ⟨-, ⟨faulted, rfl⟩ | ⟨-, _, -, -, rfl⟩ | ⟨-, -, e⟩⟩ := exec_next hx
  · exact ⟨[], by simp, by simp [faulted], NoFrameAfterFailure.nil⟩
  · exact ⟨[], by simp, by simp, NoFrameAfterFailure.nil⟩
  · cases e with
    | invalid => cases ho; exact ⟨[], by simp, by simp, NoFrameAfterFailure.nil⟩
    | staged => cases ho; exact ⟨[], by simp, by simp, NoFrameAfterFailure.nil⟩
    | applied r p hr hp =>
      cases ho
      obtain ⟨rest, events, o, path, -, e⟩ := hp.ended ended
      rw [e]
      exact ⟨events, rfl, .inr (.inr (.inl ⟨rfl, _, _, State.ready_outEn hr, State.ready_outConf hr, path⟩)),
        path.noFrameAfterFailure⟩
    | bindSilent => cases ended
    | bindErr bus cs g => exact ⟨_, rfl, .inl ⟨bus, cs, g, rfl, .inl rfl⟩, NoFrameAfterFailure.nil.bind _ _⟩
    | resetSilent => cases ended
    | resetOk bus cs g =>
      exact ⟨_, List.append_assoc .., .inl ⟨bus, cs, g, rfl, .inr (.inr rfl)⟩,
        (NoFrameAfterFailure.frame resetWord .ok).bind _ _⟩
    | resetErr bus cs g =>
      exact ⟨[.bind (bindCfg bus cs g) .ok, .write resetWord .err, .release], by simp,
        .inl ⟨bus, cs, g, rfl, .inr (.inl rfl)⟩, (NoFrameAfterFailure.frame_release resetWord .err).bind _ _⟩
    | closeUninit hu => cases ho; exact ⟨[], by simp, by simp [hu], NoFrameAfterFailure.nil⟩
    | closeSilent => cases ended
    | closeReady a hr =>
      cases ho
      exact ⟨_, List.append_assoc .., .inr (.inr (.inr (.inl ⟨rfl, hr, a, rfl⟩))),
        NoFrameAfterFailure.frame_release resetWord a⟩
    | strobeSilent => cases ho
    | strobe => cases ho
    | configured => cases ho

/-! ### Operations end where the transport answers -/

/-- No operation waits, and every scripted answer is an answer (logs 3, 4). -/
def State.Answering (s : State) : Prop :=
  s.waiting = none ∧ ∀ a ∈ s.answers, a ≠ .silent

section

variable {s : State}

theorem State.Answering.drawn (h : s.Answering) (call : TxCall) : ∃ r, s.drawn call = some r := by
  obtain ⟨-, script⟩ := h
  cases answers : s.answers with
  | nil => exact ⟨_, by rw [State.drawn, answers]⟩
  | cons a rest =>
    cases a with
    | reply r => exact ⟨r, State.drawn_reply call answers⟩
    | silent => exact absurd rfl (script .silent (by simp [answers]))

theorem State.Answering.logEvent (h : s.Answering) (e : TxEvent) : (s.popAnswer.logEvent e).Answering :=
  ⟨h.1, fun a ha => h.2 a (List.mem_of_mem_tail ha)⟩

theorem verifyTxn_ends (h : s.Answering) (w : Word) : (respondWith (verifyTxn w s)).waiting = none := by
  obtain ⟨r, hr⟩ := h.drawn (.write w)
  cases r with
  | err => rw [verifyTxn_firstErr hr]; exact h.1
  | ok x =>
    obtain ⟨q, hq⟩ := (h.logEvent (.write w .ok)).drawn (.writeRead w)
    cases q with
    | err => rw [verifyTxn_secondErr hr hq]; exact h.1
    | ok reply => rw [verifyTxn_replied hr hq]; exact h.1

theorem runInit_ends (h : s.Answering) (cfg : BindCfg) : (runInit cfg s).waiting = none := by
  obtain ⟨r, hr⟩ := h.drawn (.bind cfg)
  cases r with
  | err => rw [runInit_bindErr hr]; exact h.1
  | ok x =>
    have bound : (boundForReset cfg s).Answering := h.logEvent (.bind cfg .ok)
    obtain ⟨q, hq⟩ := bound.drawn (.write resetWord)
    cases q with
    | err => rw [runInit_resetErr hr hq]; exact h.1
    | ok y => rw [runInit_resetOk hr hq]; exact h.1

theorem finishClose_ends (h : s.Answering) : (finishClose (resetTxn s)).waiting = none := by
  obtain ⟨r, hr⟩ := h.drawn (.write resetWord)
  rw [resetTxn_answered hr]
  exact h.1

end

/-- An admitted operation ends: every call it makes is answered. -/
theorem exec_admitted_ends {s t : State} {i : Instr} {op : HostOp} (ho : hostOpOf i = some op) (hi : s.idle)
    (ha : admittedIn op s.hs = true) (answering : s.Answering) (hx : exec i s = .next t) : t.waiting = none := by
  cases i with
  | init bus cs g =>
    cases ho
    cases (exec_init_uninit bus cs g hi (admittedIn_init.mp ha)).symm.trans hx
    exact runInit_ends answering _
  | set =>
    obtain ⟨-, ended, -⟩ := exec_set_next hx
    exact ended
  | apply =>
    cases ho
    obtain ⟨⟨en, conf⟩, hr⟩ := State.hs_ready.mp (admittedIn_apply.mp ha)
    cases (exec_apply_ready hi hr).symm.trans hx
    exact verifyTxn_ends answering _
  | close =>
    cases ho
    rcases admittedIn_close.mp ha with hu | hr
    · cases (exec_close_uninit hi hu).symm.trans hx
      exact hi.1
    · cases (exec_close_ready hi hr).symm.trans hx
      exact finishClose_ends (s := s.stage clearedRegisters) answering
  | cmdReset => cases ho
  | cmdConfig => cases ho

/-- Settles O48: a fault recorded or raised makes no call, and an admitted operation's calls are all answered. -/
theorem operationsEndWhereTheTransportAnswers : Obligations.OperationsEndWhereTheTransportAnswers := by
  intro s i op ho hw script
  cases hf : s.fault with
  | some m => exact ⟨s, exec_faulted i hw hf, hw⟩
  | none =>
    have hi : s.idle := ⟨hw, hf⟩
    cases ha : admittedIn op s.hs with
    | false => exact ⟨_, exec_notAdmitted ho hi ha, hw⟩
    | true =>
      obtain ⟨t, hx⟩ := exec_admitted ho hi ha
      exact ⟨t, hx, exec_admitted_ends ho hi ha ⟨hw, script⟩ hx⟩

end Sys2Proof.Machine
end

section
/-! PROOFS. Undefined use (60_exceptions.md R117, 43_transaction_sequencer.md R103): the guard table read from its refusals,
and the fault mark as the answer of exactly those. -/

namespace Sys2Proof.Machine

/-- The rows of the guard table that R103 leaves undefined. -/
theorem admittedIn_eq_false {op : HostOp} {hs : HandleState} :
    admittedIn op hs = false ↔
      (op = .setOutput ∨ op = .apply) ∧ hs ≠ .ready ∨ op = .init ∧ hs ≠ .uninit ∨ op = .close ∧ hs = .closed := by
  rw [← Bool.not_eq_true]
  cases op with
  | init => simp [admittedIn_init]
  | setOutput => simp [admittedIn_setOutput]
  | apply => simp [admittedIn_apply]
  | close => cases hs <;> simp [admittedIn_close]

theorem State.raise_not_acceptableFinal (m : FaultMark) (s : State) : ¬ (s.raise m).acceptableFinal :=
  fun ⟨noFault, _⟩ => nomatch noFault

/-- Settles O36: a refused operation raises the mark, and no other path of `exec` from an idle state ends with one. -/
theorem undefinedUseIsTheOnlyFaultMark : Obligations.UndefinedUseIsTheOnlyFaultMark := by
  refine fun i s hi => ⟨fun op ho undefinedUse => exec_notAdmitted ho hi (admittedIn_eq_false.mpr undefinedUse),
    fun t hx marked => ?_⟩
  obtain ⟨-, ⟨faulted, -⟩ | ⟨-, op, ho, refused, rfl⟩ | ⟨noFault, -, e⟩⟩ := exec_next hx
  · exact absurd hi.2 faulted
  · exact ⟨op, ho, admittedIn_eq_false.mp refused, rfl, State.raise_not_acceptableFinal _ s⟩
  · exact absurd (e.fault.trans noFault) marked

end Sys2Proof.Machine
end

section
/-! PROOFS. Reset and hazards (70_reset_and_hazards.md): the fresh handle (R129), the one way to READY (R130), what a
Success of APPLY shows (R134, R135, R137), what a READY handle never sends (R136), and the pairs it keeps enabled (R140). -/

namespace Sys2Proof.Machine

/-- Settles O42: each value is read off the record of reset. -/
theorem resetIsAFreshHandle : Obligations.ResetIsAFreshHandle :=
  ⟨State.reset_hs, State.reset_outEn, State.reset_outConf, rfl, rfl, rfl⟩

/-! ### What a Success of APPLY shows -/

/-- Settles O15: command and status fields stand at the same places, so the word verifies itself. -/
theorem echoedWordIsSuccess : Obligations.EchoedWordIsSuccess := by
  refine fun en conf => ⟨classify_configWord_self en conf, ?_⟩
  rw [statusDecode_configWord, BitVec.setWidth_eq_extractLsb' (by decide), BitVec.setWidth_eq_extractLsb' (by decide)]
  rfl

/-- The one path of APPLY_TXN that answers Success: both frames are answered, and the reply is classified so. -/
theorem Sent.success {w : Word} {s : State} {p : State × Option OutcomeCode} (hp : Sent w s p)
    (success : (respondWith p).responses = s.responses ++ [.outcome .success]) :
    ∃ reply, (respondWith p).trace = s.trace ++ [.write w .ok, .writeRead w (.ok reply)] ∧
      classify w reply = .success := by
  cases hp with
  | firstSilent | firstErr | secondSilent | secondErr => simp [respondWith] at success
  | replied reply => exact ⟨reply, by simp [respondWith], by simpa [respondWith] using success⟩

/-- What CLASSIFY has checked where it answers Success, by the table's last row (42_status_decoder.md R86). -/
theorem classify_success_bits {w s : Word} (h : classify w s = .success) :
    s.extractLsb' 1 6 = w.extractLsb' 1 6 ∧ s.getLsbD 0 = false ∧ s.getLsbD 14 = false ∧ s.getLsbD 15 = false ∧
      s.getLsbD 13 = false := by
  obtain ⟨-, -, -, -, -, row⟩ := classifyIsTheTable w s
  obtain ⟨hbcr, tw, psf, ocs, uld⟩ := row.mp h
  obtain ⟨ocsBit, psfBit, uldBit, twBit, -, -⟩ := statusFieldsAreTheWholeWord.1 s
  rw [tw] at twBit
  rw [psf] at psfBit
  rw [ocs] at ocsBit
  rw [uld] at uldBit
  exact ⟨hbcr, twBit.symm, psfBit.symm, ocsBit.symm, uldBit.symm⟩

theorem hbcnf_configWord (en conf : Byte) : (configWord en conf).extractLsb' 1 6 = conf.extractLsb' 0 6 := by
  rw [← BitVec.setWidth_eq_extractLsb' (by decide)]
  exact congrArg CmdFields.hbcnf (cmdFields_configWord en conf)

/-- Settles O27: on that path the outcome table (42_status_decoder.md R86) gives the reply's bits. -/
theorem applySuccessIsVerified : Obligations.ApplySuccessIsVerified := by
  intro s t en conf hi hr hx success
  cases (exec_apply_ready hi hr).symm.trans hx
  obtain ⟨reply, trace, verified⟩ := (verifyTxn_sent _ s).success success
  obtain ⟨hbcr, tw, psf, ocs, uld⟩ := classify_success_bits verified
  exact ⟨reply, trace, hbcr.trans (hbcnf_configWord en conf), tw, psf, ocs, uld⟩

/-! ### APPLY and the handle it runs on -/

/-- The state with its handle replaced. -/
def State.withHandle (h : Handle) (s : State) : State :=
  { s with handle := h }

section

variable (h : Handle) (s : State)

/-- No transport call reads the handle, or writes it. -/
theorem transact_withHandle (call : TxCall) :
    transact call (s.withHandle h) = ((transact call s).1.withHandle h, (transact call s).2) := by
  have drawn : (s.withHandle h).drawn call = s.drawn call := rfl
  cases answer : s.drawn call with
  | none => rw [transact_silent (drawn.trans answer), transact_silent answer]; rfl
  | some r => rw [transact_answered (drawn.trans answer), transact_answered answer]; rfl

theorem txWrite_withHandle (w : Word) :
    txWrite w (s.withHandle h) = ((txWrite w s).1.withHandle h, (txWrite w s).2) := by
  simp only [txWrite, transact_withHandle]

theorem verifyTxn_withHandle (w : Word) :
    verifyTxn w (s.withHandle h) = ((verifyTxn w s).1.withHandle h, (verifyTxn w s).2) := by
  simp only [verifyTxn, txWrite_withHandle]
  obtain ⟨t, _ | _ | _⟩ := txWrite w s
  case none => rfl
  case some.err => rfl
  case some.ok =>
    simp only [txWriteRead, transact_withHandle]
    obtain ⟨u, _ | _ | _⟩ := transact (.writeRead w) t <;> rfl

theorem respondWith_withHandle (t : State) (o : Option OutcomeCode) :
    respondWith (t.withHandle h, o) = (respondWith (t, o)).withHandle h := by
  cases o <;> rfl

/-- APPLY of a READY handle reads nothing of the registers but their word (43_transaction_sequencer.md R98). -/
theorem exec_apply_withHandle (en conf : Byte) (hi : s.idle) :
    exec .apply (s.withHandle (.ready ⟨en, conf⟩)) =
      .next ((respondWith (verifyTxn (configWord en conf) s)).withHandle (.ready ⟨en, conf⟩)) := by
  rw [exec_apply_ready (s := s.withHandle (.ready ⟨en, conf⟩)) hi rfl, verifyTxn_withHandle, respondWith_withHandle]

end

/-- Settles O26: two pairs of registers with the same low six bits have the same word. -/
theorem applyCannotSeeAxisThree : Obligations.ApplyCannotSeeAxisThree := by
  intro s en conf en' conf' hi hen hconf
  have sameWord : configWord en conf = configWord en' conf' := encodeCommand_congr 0#1 hen hconf
  refine ⟨_, exec_apply_withHandle s en conf hi, ?_⟩
  rw [sameWord]
  exact exec_apply_withHandle s en' conf' hi

/-! ### The way to READY -/

/-- APPLY_TXN writes the trace only (43_transaction_sequencer.md R94). -/
theorem Sent.handle {w : Word} {s : State} {p : State × Option OutcomeCode} (hp : Sent w s p) :
    p.1.handle = s.handle := by
  cases hp <;> rfl

theorem Sent.hs {w : Word} {s : State} {p : State × Option OutcomeCode} (hp : Sent w s p) : p.1.hs = s.hs :=
  congrArg Handle.state hp.handle

theorem respondWith_handle (p : State × Option OutcomeCode) : (respondWith p).handle = p.1.handle := by
  obtain ⟨t, _ | o⟩ := p <;> rfl

/-- INITIALIZE from UNINIT is the only instruction that makes a handle READY (R130). -/
theorem Effect.reaches_ready {s t : State} {i : Instr} (e : Effect s i t) (before : s.hs ≠ .ready)
    (after : t.hs = .ready) : s.hs = .uninit ∧ ∃ bus cs gpioCs, i = .init bus cs gpioCs := by
  cases e with
  | invalid _ _ hr => exact absurd hr before
  | staged _ _ _ _ _ hr => exact absurd (State.ready_hs hr) before
  | applied _ _ hr => exact absurd (State.ready_hs hr) before
  | bindSilent _ _ _ hu | bindErr _ _ _ hu | resetSilent _ _ _ hu | resetOk _ _ _ hu | resetErr _ _ _ hu =>
    exact ⟨hu, _, _, _, rfl⟩
  | closeUninit => cases after
  | closeSilent hr => exact absurd hr before
  | closeReady _ hr => exact absurd hr before
  | strobeSilent | strobe => exact absurd after before
  | configured _ _ _ _ hp => exact absurd (hp.hs.symm.trans after) before

/-- Settles O53: of the paths of INITIALIZE one ends READY, and its two calls are answered Ok. -/
theorem onlyInitializeReachesReady : Obligations.OnlyInitializeReachesReady := by
  intro s t before hs after
  obtain ⟨-, ⟨-, rfl⟩ | ⟨e, u, i, hn, hd, hx⟩⟩ := step_next hs
  · exact absurd after before
  obtain ⟨w, rs, rfl⟩ := nextIssue_inputs hn
  obtain ⟨-, ⟨-, rfl⟩ | ⟨-, op, -, -, rfl⟩ | ⟨-, -, path⟩⟩ := exec_next hx
  · exact absurd after before
  · exact absurd after before
  · obtain ⟨uninit, bus, cs, gpioCs, rfl⟩ := path.reaches_ready before after
    exact ⟨bus, cs, gpioCs, _, e, hn, hd, uninit, resetWord_eq ▸ path.init_ready_trace after⟩

/-! ### The frames of a READY handle -/

/-- No frame with the reset strobe is sent between `s` and `t` (30_encoding.md R53, decision D1). -/
def NoStrobe (s t : State) : Prop :=
  ∃ events, t.trace = s.trace ++ events ∧ ∀ w ∈ framesSent events, w.getLsbD 15 = false

section

variable {s t : State} {i : Instr} {op : HostOp}

theorem NoStrobe.silent (trace : t.trace = s.trace) : NoStrobe s t :=
  ⟨[], by simp [trace], by simp [framesSent]⟩

/-- A trace has one tail after another trace: any events that `t` has beyond `s` are free of strobes. -/
theorem NoStrobe.frames (h : NoStrobe s t) {events : List TxEvent} (trace : t.trace = s.trace ++ events) :
    ∀ w ∈ framesSent events, w.getLsbD 15 = false := by
  obtain ⟨_, trace', noStrobe⟩ := h
  cases List.append_cancel_left (trace.symm.trans trace')
  exact noStrobe

theorem configWord_noStrobe (en conf : Byte) : (configWord en conf).getLsbD 15 = false := by
  rw [← srr_getLsbD, cmdFields_configWord]; exact BitVec.getLsbD_zero

theorem Sent.noStrobe {en conf : Byte} {p : State × Option OutcomeCode} (hp : Sent (configWord en conf) s p) :
    NoStrobe s p.1 := by
  obtain ⟨events, trace, same⟩ := hp.events
  exact ⟨events, trace, fun w hw => same w hw ▸ configWord_noStrobe en conf⟩

/-- A host operation sends a strobe only as INITIALIZE of an UNINIT handle or as CLOSE that ends CLOSED. -/
theorem Effect.noStrobe_or (e : Effect s i t) (ho : hostOpOf i = some op) :
    NoStrobe s t ∨ (op = .init ∧ s.hs = .uninit) ∨ (op = .close ∧ t.hs = .closed) := by
  cases e with
  | invalid | staged => exact .inl (.silent rfl)
  | applied _ _ _ hp => exact .inl (by simpa only [NoStrobe, respondWith_trace] using hp.noStrobe)
  | bindSilent _ _ _ hu | bindErr _ _ _ hu | resetSilent _ _ _ hu | resetOk _ _ _ hu | resetErr _ _ _ hu =>
    cases ho; exact .inr (.inl ⟨rfl, hu⟩)
  | closeUninit | closeSilent => exact .inl (.silent rfl)
  | closeReady => cases ho; exact .inr (.inr ⟨rfl, rfl⟩)
  | strobeSilent | strobe | configured => cases ho

theorem exec_noStrobe_or (hx : exec i s = .next t) (ho : hostOpOf i = some op) :
    NoStrobe s t ∨ (op = .init ∧ s.hs = .uninit) ∨ (op = .close ∧ t.hs = .closed) := by
  obtain ⟨-, ⟨-, rfl⟩ | ⟨-, op, -, -, rfl⟩ | ⟨-, -, e⟩⟩ := exec_next hx
  · exact .inl (.silent rfl)
  · exact .inl (.silent rfl)
  · exact e.noStrobe_or ho

end

/-- Settles O54: the handle is not READY before such an INITIALIZE, nor after such a CLOSE. -/
theorem readyHandleNeverStrobes : Obligations.ReadyHandleNeverStrobes := by
  refine ⟨fun s t events noWire before hs after trace => ?_, fun s t events i op ho hx trace ⟨w, hw, strobe⟩ => ?_⟩
  · obtain rfl | ⟨i, op, rest, ho, hx⟩ := step_host_cases hs noWire
    · exact (NoStrobe.silent rfl).frames trace
    · obtain noStrobe | ⟨-, uninit⟩ | ⟨-, closed⟩ := exec_noStrobe_or hx ho
      · exact noStrobe.frames trace
      · cases before.symm.trans uninit
      · cases after.symm.trans closed
  · obtain noStrobe | ⟨isInit, -⟩ | ⟨isClose, -⟩ := exec_noStrobe_or hx ho
    · cases (noStrobe.frames trace w hw).symm.trans strobe
    · exact .inl isInit
    · exact .inr isClose

/-! ### The echo device's latches -/

/-- A frame without the reset strobe joins what is raised to what is latched (95_test_vectors.md section 4). -/
theorem echoFrame_of_noStrobe {w : Word} (h : w.getLsbD 15 = false) (inject : FaultBits) (d : EchoDevice) :
    echoFrame inject w d =
      (d.prev, ⟨echoStatus (cmdFields w) (joinFaults d.latched inject), joinFaults d.latched inject⟩) := by
  have srr : (cmdFields w).srr = 0 := eq_zero_of_getLsbD_zero ((srr_getLsbD w).trans h)
  exact if_neg (by rw [srr]; decide)

theorem echoFrame_of_strobe {w : Word} (h : w.getLsbD 15 = true) (inject : FaultBits) (d : EchoDevice) :
    echoFrame inject w d = (d.prev, ⟨0, noFaults⟩) := by
  refine if_pos ((BitVec.eq_zero_or_eq_one _).resolve_left fun srr => ?_)
  have bit := (srr_getLsbD w).trans h
  rw [srr] at bit
  cases bit

/-- The four outcomes of a hardware fault (60_exceptions.md R113). -/
def OutcomeCode.isHardwareFault (o : OutcomeCode) : Prop :=
  o = .thermalWarning ∨ o = .powerSupplyFailure ∨ o = .overcurrentShutoff ∨ o = .underLoad

/-- The device's status echoes `hbcnf`, so CLASSIFY comes to the fault bits, of which one is set. -/
theorem classify_echoStatus (w : Word) {l : FaultBits} (h : l ≠ noFaults) :
    (classify w (echoStatus (cmdFields w) l)).isHardwareFault := by
  rw [classify, echoStatus, statusDecode_packStatus]
  obtain ⟨tw, uld, psf, ocs⟩ := l
  cases tw
  case true => exact .inl (by simp)
  cases psf
  case true => exact .inr (.inl (by simp))
  cases ocs
  case true => exact .inr (.inr (.inl (by simp)))
  cases uld
  case true => exact .inr (.inr (.inr (by simp)))
  case false => exact absurd rfl h

/-- APPLY whose two calls the script answers Ok responds with the second reply's class
(43_transaction_sequencer.md R94, R98). -/
theorem exec_apply_replied {s t : State} {en conf : Byte} {lost reply : Word} {rest : List Answer} (hi : s.idle)
    (hr : s.handle = .ready ⟨en, conf⟩) (script : s.answers = .reply (.ok lost) :: .reply (.ok reply) :: rest)
    (hx : exec .apply s = .next t) : t.responses = s.responses ++ [.outcome (classify (configWord en conf) reply)] := by
  have first : s.drawn (.write (configWord en conf)) = some (.ok lost) := State.drawn_reply _ script
  have second : (s.popAnswer.logEvent (.write (configWord en conf) .ok)).drawn (.writeRead (configWord en conf)) =
      some (.ok reply) :=
    State.drawn_reply _ (congrArg List.tail script)
  rw [exec_apply_ready hi hr, verifyTxn_replied first second] at hx
  cases hx
  rfl

/-- Settles O57: the second reply shows the first frame's status, in which a latched bit stands. -/
theorem echoDeviceKeepsItsLatches : Obligations.EchoDeviceKeepsItsLatches := by
  refine ⟨fun s t en conf d inject rest hi hr latched script hx => ?_, fun d inject w => ⟨fun h => ?_, fun h => ?_⟩⟩
  · have answers : s.answers = .reply (.ok d.prev) ::
        .reply (.ok (echoStatus (cmdFields (configWord en conf)) (joinFaults d.latched inject))) :: rest := by
      simp only [script, echoScript, echoAnswer, echoFrame_of_noStrobe (configWord_noStrobe en conf), List.cons_append,
        List.nil_append]
    exact ⟨_, exec_apply_replied hi hr answers hx, classify_echoStatus _ latched⟩
  · rw [echoFrame_of_noStrobe h]
  · rw [echoFrame_of_strobe h]

/-! ### Enabled pairs -/

/-- SET_OUTPUT enables pairs and disables none, whatever the direction (40_device_state.md R73). -/
theorem setOutput_keeps_enabled {r : Staged} {b : Axis} (a : Axis) (d : Direction) (h : getPair r.outEn b = 0b11#2) :
    getPair (setOutput a d r).outEn b = 0b11#2 := by
  by_cases hab : b = a
  · rw [hab]; exact getPair_setOutput_outEn_same a d r
  · rw [(getPair_setOutput_other d r hab).1, h]

section

variable {s t : State} {i : Instr} {r : Staged}

/-- What becomes of the registers of a handle that stays READY: an instruction that completes keeps them, or is a
SET_OUTPUT. -/
theorem Effect.ready_handle (e : Effect s i t) (hr : s.handle = .ready r) (after : t.hs = .ready)
    (done : t.waiting = none) : t.handle = .ready r ∨ ∃ a d, t.handle = .ready (setOutput a d r) := by
  have notUninit : s.hs ≠ .uninit := by simp [State.ready_hs hr]
  cases e with
  | invalid => exact .inl hr
  | staged _ _ a d q hq =>
    cases hr.symm.trans hq
    exact .inr ⟨a, d, by simp [hr, Handle.write]⟩
  | applied _ _ _ hp => exact .inl ((respondWith_handle _).trans (hp.handle.trans hr))
  | bindSilent _ _ _ hu | bindErr _ _ _ hu | resetSilent _ _ _ hu | resetOk _ _ _ hu | resetErr _ _ _ hu =>
    exact absurd hu notUninit
  | closeUninit => cases after
  | closeSilent => cases done
  | closeReady => cases after
  | strobeSilent | strobe => exact .inl hr
  | configured _ _ _ _ hp => exact .inl (hp.handle.trans hr)

theorem step_ready_handle (hs : step s = .next t) (hr : s.handle = .ready r) (after : t.hs = .ready)
    (done : t.waiting = none) : t.handle = .ready r ∨ ∃ a d, t.handle = .ready (setOutput a d r) := by
  obtain rfl | ⟨i, w, rs, hx⟩ := step_cases hs
  · exact .inl hr
  · obtain ⟨-, ⟨-, rfl⟩ | ⟨-, op, -, -, rfl⟩ | ⟨-, -, e⟩⟩ := exec_next hx
    · exact .inl hr
    · exact .inl hr
    · exact e.ready_handle hr after done

end

/-- Settles O22: direction 0 writes the pair as any other does, and a step that stays READY disables no pair. -/
theorem enabledPairsStayEnabled : Obligations.EnabledPairsStayEnabled := by
  refine ⟨fun s t a hi ready hx => ?_, fun s t en ready hen hs after done => ?_⟩
  · obtain ⟨r, hr⟩ := State.hs_ready.mp ready
    obtain ⟨-, ht⟩ := exec_set_handle (dir := .zero) hi hr hx
    exact ⟨_, _, State.ready_outEn ht, State.ready_outConf ht, getPair_setOutput_outEn_same a .zero r,
      getPair_setOutput_outConf_same a .zero r⟩
  · obtain ⟨r, hr⟩ := State.hs_ready.mp ready
    cases (State.ready_outEn hr).symm.trans hen
    obtain ht | ⟨a, d, ht⟩ := step_ready_handle hs hr after done
    · exact ⟨_, State.ready_outEn ht, fun _ enabled => enabled⟩
    · exact ⟨_, State.ready_outEn ht, fun _ enabled => setOutput_keeps_enabled a d enabled⟩

end Sys2Proof.Machine
end

section
/-! PROOFS. The words and requests of the test vectors (95_test_vectors.md) at the decoder. -/

namespace Sys2Proof.Machine

theorem decodeWord_error {w : Word} {e : DecodeError} (h : decodeWord w = .error e) : e = .notEmitted w := by
  unfold decodeWord at h
  dsimp only at h
  split at h
  case isTrue =>
    split at h
    case isTrue => cases h
    case isFalse =>
      split at h
      case isTrue => cases h
      case isFalse => cases h; rfl
  case isFalse => cases h; rfl

/-- A word that is neither form of R55 is rejected (30_encoding.md R67). -/
theorem decodeWord_of_not_legal {w : Word} (h : commandWordLegal w = false) : decodeWord w = .error (.notEmitted w) := by
  cases decoded : decodeWord w with
  | error e => rw [decodeWord_error decoded]
  | ok i =>
    have legal := encode_wellFormed i
    rw [encode_of_decodeWord decoded] at legal
    cases h.symm.trans legal

/-- Settles O9: each form but 0x4000 is the encoding of what it stands for, and 0x4000 has a bit under the mask of R55. -/
theorem specWordsDecode : Obligations.SpecWordsDecode :=
  ⟨decode_encode .cmdReset, decode_encode (.cmdConfig 0b000011#6 0b000001#6), decodeWord_of_not_legal (by decide),
    fun bus cs => decode_encode (.init bus cs 5), decode_encode (.set 3 (-1)), decode_encode .apply,
    decode_encode .close⟩

end Sys2Proof.Machine
end
